-- ==== Sys2Proof/Word.lean ====
section
/-! DEFINITION. The widths of the controller's data (00_scope.md R6, R8): host words, target register words, bytes,
bus addresses. Bit 0 is the least significant bit; `++` puts its left operand in the high bits (R8). -/

namespace Sys2Proof

/-- A host register or a command word: `HOST_REG_BITS = CMD_BITS = 32` (R6, R15, R64). -/
abbrev Word := BitVec 32

/-- A 16-bit word: a target register's value, the configuration word (R6 `REG_BITS`, R8, R29). -/
abbrev Half := BitVec 16

/-- A byte on the wire (R8, R11). -/
abbrev Byte := BitVec 8

/-- A 7-bit bus address (R6 `ADDR_BITS`, R45). -/
abbrev BusAddr := BitVec 7

end Sys2Proof
end

