-- ==== Sys2Proof/Syntax.lean ====
section
/-! DEFINITION. The twelve commands of 30_encoding.md R69, one constructor per row of spec/opcode_table.json, and
the names of the configuration word's fields (10_state.md R29). Operands have exactly the widths of the formats
T, K, N and Z (R65 to R67); which operand values a command accepts is checked when it runs (60_exceptions.md R127). -/

namespace Sys2Proof

/-- A command with its operands. -/
inductive Instr where
  /-- `BUS_WRITE reg, n, data` (R97): format T, fields `R`, `N`, `D`. -/
  | busWrite (reg : Byte) (n : BitVec 2) (data : Half)
  /-- `BUS_READ reg, n` (R98): format T, fields `R`, `N`. -/
  | busRead (reg : Byte) (n : BitVec 2)
  /-- `ENC_CONFIG field, value, base` (R102): format K, fields `F`, `V`, `B`. -/
  | encConfig (field : BitVec 4) (value : Byte) (base : Half)
  /-- `DEC_CONV b0, b1` (R104): format K, field `B = b0 ++ b1`. -/
  | decConv (b : Half)
  /-- `DEC_STATUS b0, b1` (R107): format K, field `B = b0 ++ b1`. -/
  | decStatus (b : Half)
  /-- `ENC_THRESH value` (R109): format K, field `B`. -/
  | encThresh (value : Half)
  /-- `BIND addr [, cfg]` (R112): format N, fields `DF`, `A`, `C`. -/
  | bind (df : Bool) (addr : BusAddr) (cfg : Half)
  /-- `SET_FIELD field, value` (R113): format K, fields `F`, `V`. -/
  | setField (field : BitVec 4) (value : Byte)
  /-- `REQ_CHAN sel` (R114): format K, field `V`. -/
  | reqChan (sel : Byte)
  /-- `IS_READY` (R115): format Z. -/
  | isReady
  /-- `READ_CONV` (R116): format Z. -/
  | readConv
  /-- `SET_THRESH which, value` (R117): format T, fields `R`, `D`. -/
  | setThresh (which : Byte) (value : Half)
deriving DecidableEq, Repr, Inhabited

/-- The fields of the configuration word, in the order of their ids 0 to 8 (R29, R68). -/
inductive Field where
  | os | mux | pga | mode | dr | compMode | compPol | compLat | compQue
deriving DecidableEq, Repr, Inhabited

end Sys2Proof
end

