-- ==== Sys2Proof/Decode.lean ====
section
/-! DEFINITION. From a 32-bit command word to a command or a named rejection (30_encoding.md R64 to R74), and back.
The decoder reads `OP`, then the reserved bits of that opcode, then its fields, in the order of 60_exceptions.md R127. -/

namespace Sys2Proof

/-- Why a word is no command. Both verdicts complete the command with `INVALID_ARGUMENT` (R70, R71, R124). -/
inductive Reject where
  /-- Opcodes `0x0`, `0x7`, `0xE`, `0xF` (R70). -/
  | reservedOpcode
  /-- A defined opcode with a reserved bit set (R71). -/
  | reservedBits
deriving DecidableEq, Repr, Inhabited

/-- `LATCH[lo+len-1 : lo]`. -/
def bitsAt (w : Word) (lo len : Nat) : BitVec len := w.extractLsb' lo len

/-- The field `R` of format T (R65). -/
def fieldR (w : Word) : Byte := bitsAt w 16 8
/-- The field `N` of format T (R65). -/
def fieldN (w : Word) : BitVec 2 := bitsAt w 24 2
/-- The 16-bit field in bits 15:0: `D` of format T, `B` of format K, `C` of format N (R65 to R67). -/
def fieldD (w : Word) : Half := bitsAt w 0 16
/-- The field `F` of format K (R66). -/
def fieldF (w : Word) : BitVec 4 := bitsAt w 24 4
/-- The field `V` of format K (R66). -/
def fieldV (w : Word) : Byte := bitsAt w 16 8
/-- The field `A` of format N (R67). -/
def fieldA (w : Word) : BusAddr := bitsAt w 16 7
/-- The field `DF` of format N (R67). -/
def fieldDF (w : Word) : Bool := bitsAt w 27 1 == 1#1

/-- Accept `i` if the reserved bits are all 0 (R69, R71). -/
def unlessReserved {len : Nat} (reserved : BitVec len) (i : Instr) : Except Reject Instr :=
  if reserved = 0#len then .ok i else .error .reservedBits

/-- As `unlessReserved`, for a row with two groups of reserved bits (R69). -/
def unlessReserved2 {m n : Nat} (r1 : BitVec m) (r2 : BitVec n) (i : Instr) : Except Reject Instr :=
  if r1 = 0#m ∧ r2 = 0#n then .ok i else .error .reservedBits

/-- The decoder of R73: every word is exactly one command or is rejected, by the opcode map of R69. -/
def decode (w : Word) : Except Reject Instr :=
  match (bitsAt w 28 4).toNat with
  | 0x1 => unlessReserved (bitsAt w 26 2) (.busWrite (fieldR w) (fieldN w) (fieldD w))
  | 0x2 => unlessReserved2 (bitsAt w 26 2) (bitsAt w 0 16) (.busRead (fieldR w) (fieldN w))
  | 0x3 => .ok (.encConfig (fieldF w) (fieldV w) (fieldD w))
  | 0x4 => unlessReserved (bitsAt w 16 12) (.decConv (fieldD w))
  | 0x5 => unlessReserved (bitsAt w 16 12) (.decStatus (fieldD w))
  | 0x6 => unlessReserved (bitsAt w 16 12) (.encThresh (fieldD w))
  | 0x8 => unlessReserved (bitsAt w 23 4) (.bind (fieldDF w) (fieldA w) (fieldD w))
  | 0x9 => unlessReserved (bitsAt w 0 16) (.setField (fieldF w) (fieldV w))
  | 0xA => unlessReserved2 (bitsAt w 24 4) (bitsAt w 0 16) (.reqChan (fieldV w))
  | 0xB => unlessReserved (bitsAt w 0 28) .isReady
  | 0xC => unlessReserved (bitsAt w 0 28) .readConv
  | 0xD => unlessReserved (bitsAt w 24 4) (.setThresh (fieldR w) (fieldD w))
  | _ => .error .reservedOpcode

/-- The word of a command: the 32-bit patterns of R69, bit 31 first, reserved bits 0. -/
def encode : Instr → Word
  | .busWrite reg n data => 0x1#4 ++ 0#2 ++ n ++ reg ++ data
  | .busRead reg n => 0x2#4 ++ 0#2 ++ n ++ reg ++ 0#16
  | .encConfig f v base => 0x3#4 ++ f ++ v ++ base
  | .decConv b => 0x4#4 ++ 0#12 ++ b
  | .decStatus b => 0x5#4 ++ 0#12 ++ b
  | .encThresh v => 0x6#4 ++ 0#12 ++ v
  | .bind df addr cfg => 0x8#4 ++ BitVec.ofBool df ++ 0#4 ++ addr ++ cfg
  | .setField f v => 0x9#4 ++ f ++ v ++ 0#16
  | .reqChan sel => 0xA#4 ++ 0#4 ++ sel ++ 0#16
  | .isReady => 0xB#4 ++ 0#28
  | .readConv => 0xC#4 ++ 0#28
  | .setThresh which v => 0xD#4 ++ 0#4 ++ which ++ v

/-- One row of the opcode map of R69: `w &&& mask = pattern` says that `w` has this opcode and no reserved bit. -/
structure OpcodeRow where
  mnemonic : String
  mask : Word
  pattern : Word
deriving DecidableEq, Repr

/-- The opcode map of R69, copied row by row from its `mask` and `match` columns. The decoder does not read it: a
statement says that the decoder accepts exactly the words that match a row. -/
def opcodeMap : List OpcodeRow :=
  [ ⟨"BUS_WRITE", 0xFC000000#32, 0x10000000#32⟩,
    ⟨"BUS_READ", 0xFC00FFFF#32, 0x20000000#32⟩,
    ⟨"ENC_CONFIG", 0xF0000000#32, 0x30000000#32⟩,
    ⟨"DEC_CONV", 0xFFFF0000#32, 0x40000000#32⟩,
    ⟨"DEC_STATUS", 0xFFFF0000#32, 0x50000000#32⟩,
    ⟨"ENC_THRESH", 0xFFFF0000#32, 0x60000000#32⟩,
    ⟨"BIND", 0xF7800000#32, 0x80000000#32⟩,
    ⟨"SET_FIELD", 0xF000FFFF#32, 0x90000000#32⟩,
    ⟨"REQ_CHAN", 0xFF00FFFF#32, 0xA0000000#32⟩,
    ⟨"IS_READY", 0xFFFFFFFF#32, 0xB0000000#32⟩,
    ⟨"READ_CONV", 0xFFFFFFFF#32, 0xC0000000#32⟩,
    ⟨"SET_THRESH", 0xFF000000#32, 0xD0000000#32⟩ ]

/-- The mnemonic of a command (R69). -/
def Instr.mnemonic : Instr → String
  | .busWrite _ _ _ => "BUS_WRITE"
  | .busRead _ _ => "BUS_READ"
  | .encConfig _ _ _ => "ENC_CONFIG"
  | .decConv _ => "DEC_CONV"
  | .decStatus _ => "DEC_STATUS"
  | .encThresh _ => "ENC_THRESH"
  | .bind _ _ _ => "BIND"
  | .setField _ _ => "SET_FIELD"
  | .reqChan _ => "REQ_CHAN"
  | .isReady => "IS_READY"
  | .readConv => "READ_CONV"
  | .setThresh _ _ => "SET_THRESH"

/-- The row of the opcode map that a word matches. -/
abbrev OpcodeRow.accepts (r : OpcodeRow) (w : Word) : Prop := w &&& r.mask = r.pattern

/-- The command word a table entry of `nbits` bits stands for: every bit from `nbits` up is 0 (the host's
convention). -/
def tableWord (nbits w : Nat) : Word := BitVec.ofNat 32 (w % 2 ^ nbits)

/-- The command the decoder reads from a table entry's word. A command is one 32-bit word (R64), which the host hands
over whole (20_memory.md R51: no byte order), so an entry of more than 32 bits is none. -/
def decodeTableWord (nbits w : Nat) : Option Instr :=
  if nbits ≤ 32 then
    match decode (tableWord nbits w) with
    | .ok i => some i
    | .error _ => none
  else none

end Sys2Proof
end

