-- ==== Sys2Proof/Config.lean ====
section
/-! DEFINITION. What is fixed for one controller (the parameters of 00_scope.md R6 of kind "argument"), what the
oracle may answer (R12), and the free values: constants without a body, of which nothing can be proved. -/

namespace Sys2Proof

/-- The parameters of R6 marked *argument*. A state carries one value of this type and no step changes it, so a
statement about every state is a statement about every choice of the parameters. The defaults are R6's. -/
structure Config where
  /-- `P_CONFIG_DEFAULT`: what `BIND` puts in the mirror when `DF = 1` (R6, R112). -/
  configDefault : Half := 0x8583#16
  /-- `P_TIMEOUT_RESET`: the reset value of `TIMEOUT`, in milliseconds (R6, R22). -/
  timeoutReset : Word := 500#32
  /-- `P_ARB_LOSS`: whether the oracle may answer an arbitration loss (R6, R12). -/
  arbLoss : Bool := true
  /-- `P_TIMEOUT_ANY_STEP`: whether the oracle may answer a timeout (R6, R12). -/
  timeoutAnyStep : Bool := true
deriving DecidableEq, Repr, Inhabited

/-- The parameters at the defaults R6 lists (log 4). -/
def Config.default : Config := {}

/-- What the two outside agents of R7 do at one bus step: the bus environment times the step out or takes the bus
away, the target drives the acknowledge bit and the data byte. Each question of R12 reads the part it asks about
(`Machine/Bus.lean`); every answer R12 allows is the reading of some value of this type, and no other is (log 5). -/
structure Answer where
  /-- The bus environment answers `TIMEOUT`. -/
  timeout : Bool := false
  /-- The bus environment answers `ARB_LOST`. -/
  arbLost : Bool := false
  /-- The target acknowledges a transmitted byte. -/
  ack : Bool := true
  /-- The byte the target sends. -/
  byte : Byte := 0#8
deriving DecidableEq, Repr, Inhabited

/-- The oracle's answer to the `k`-th question, when no scripted answer is left: a free value (R12 "under no law",
93_implementation_defined.md U1; log 5). -/
opaque Config.oracle : Nat → Answer

/-- What a byte of `SCRATCH` holds after a transaction has ended: a free value (R39 "the spec gives it no value",
93_implementation_defined.md U5; log 6). -/
opaque Config.staleByte : Nat → Byte

end Sys2Proof
end

