-- ==== Sys2Proof/Machine/State.lean ====
section
/-! DEFINITION. The state of the controller (10_state.md) as plain data, the state after reset
(70_reset_and_hazards.md R140), and the reasons a step can stop (60_exceptions.md R135). -/

namespace Sys2Proof.Machine

/-- Why the machine stops. The three model faults of R135, all raised by the HOST's accesses
(`Machine/HostAccess.lean`), none by a command. Each is safe: the spec gives such a run no meaning. -/
inductive Fault where
  /-- An access of another width than 32 bits, misaligned, or at an unlisted offset (R16). Raised by a host read or
  write. Safe. -/
  | hostBadAccess
  /-- A host read of `RESULT` before the first result-producing command succeeds after reset, or of `CFG_MIRROR` or
  `BUS_ADDR` while `STATUS.BOUND = 0`: the spec's own fault `UNWRITTEN_READ` (R19 to R21, R135). Raised by a host
  read, by no command. Safe. -/
  | unwrittenRead
  /-- A write of `CMD` or `TIMEOUT` while `STATUS.BUSY = 1` (R147). Raised by a host write. Safe. -/
  | hostOverlap
deriving DecidableEq, Repr, Inhabited

/-- Why an instruction has no meaning here. No arm of `exec` uses it: every command is modelled. -/
inductive Refusal where
  /-- The instruction's meaning has not been written. Raised by no arm. Safe. -/
  | notModelled (mnemonic : String)
deriving DecidableEq, Repr, Inhabited

/-- The outcome of a command, `STATUS.ERRCODE` (R123). Codes 6 to 15 are never produced (93_implementation_defined.md
U11) and have no constructor. -/
inductive Code where
  | ok | invalidArgument | addrNack | dataNack | arbLost | timeout
deriving DecidableEq, Repr, Inhabited

/-- `FAIL`: the not-acknowledge seen, while its stop condition is still to be sent (R38, R88, R90). -/
inductive NackCause where
  | addr | data
deriving DecidableEq, Repr, Inhabited

/-- Why a transaction ended without a stop condition (R11, R91). -/
inductive AbortCause where
  | timeout | arbLost
deriving DecidableEq, Repr, Inhabited

/-- The acknowledge bit after a byte (R11). -/
inductive AckBit where
  | ack | nack
deriving DecidableEq, Repr, Inhabited

/-- An event on the bus (R11). -/
inductive BusEvent where
  /-- `S`, the start condition. -/
  | start
  /-- `Sr`, the repeated start. -/
  | repStart
  /-- `P`, the stop condition. -/
  | stop
  /-- `TX(b, a)`: the controller sends `b`, the target answers `a`. -/
  | tx (b : Byte) (a : AckBit)
  /-- `RX(b, a)`: the target sends `b`, the controller answers `a`. -/
  | rx (b : Byte) (a : AckBit)
  /-- `ABORT(c)`: the controller stopped for cause `c`, with no stop condition. -/
  | abort (c : AbortCause)
deriving DecidableEq, Repr, Inhabited

/-- The direction of a transaction (R83). -/
inductive Dir where
  | wr | rd
deriving DecidableEq, Repr, Inhabited

/-- The two conditions `Cond(k)` drives (R87). -/
inductive CondKind where
  | start | repStart
deriving DecidableEq, Repr, Inhabited

/-- One bus step of a transaction before its final stop: `Cond(k)` (R87), `Tx(b, cause)` (R88), `Rx(i, last)` (R89). -/
inductive BusOp where
  | cond (k : CondKind)
  | tx (b : Byte) (cause : NackCause)
  | rx (i : Nat) (last : Bool)
deriving DecidableEq, Repr, Inhabited

/-- `TXN`: the running transaction (R83). `todo` is its position: the bus steps still to take before the final
`Stop()`, so the bytes still to send are those of its `tx` and the next byte to receive is that of its first `rx`. -/
structure Txn where
  dir : Dir
  ptr : Byte
  n : Nat
  /-- The command that started it, for its result writes. -/
  cmd : Instr
  todo : List BusOp
deriving DecidableEq, Repr, Inhabited

/-- `PHASE` (R38). `TXN` holds a value exactly while `PHASE = BUS` (R38, R82), so it is held there. -/
inductive Phase where
  | idle
  | decode
  | bus (txn : Txn)
deriving DecidableEq, Repr, Inhabited

/-- `SCRATCH[0]` (first on the wire) and `SCRATCH[1]` (R39). -/
structure Scratch where
  b0 : Byte
  b1 : Byte
deriving DecidableEq, Repr, Inhabited

/-- One turn of an agent (R7, R133): what the outside world does to the controller, or one controller step. Accesses
carry their width in bits and their byte offset, so that the bad ones of R16 can be written too. -/
inductive Turn where
  | hostRead (width offset : Nat)
  | hostWrite (width offset : Nat) (value : Word)
  /-- The external reset event (R140). -/
  | reset
  | controller
deriving DecidableEq, Repr, Inhabited

/-- The whole state. The first group is host-visible, the second hidden; the third belongs to the agents outside the
controller and is the MODEL's own (log 1, 2, 5, 6). -/
structure State where
  /-- The parameters (R6); no step changes them. -/
  config : Config
  /-- `STATUS.BUSY` (R18). -/
  busy : Bool
  /-- `STATUS.BOUND` (R18, R25). -/
  bound : Bool
  /-- `STATUS.ERRCODE` (R18, R123). -/
  errCode : Code
  /-- `RESULT` (R19). -/
  result : Word
  /-- R19's condition: a result-producing command has succeeded since reset. A host read of `RESULT` tests it. -/
  resultHeld : Bool
  /-- `SESS_ADDR`, host view `BUS_ADDR` (R21, R25, R26); it holds a value while `bound`. -/
  sessAddr : BusAddr
  /-- `CFG_MIRROR` (R20, R25, R27); it holds a value while `bound`. -/
  cfgMirror : Half
  /-- `TIMEOUT` (R22). -/
  timeout : Word
  /-- `PHASE` and `TXN` (R38, R83). -/
  phase : Phase
  /-- `LATCH` (R38). -/
  latch : Word
  /-- `LATCH_TIMEOUT` (R38). -/
  latchTimeout : Word
  /-- `FAIL` (R38). -/
  fail : Option NackCause
  /-- `SCRATCH` (R39). -/
  scratch : Scratch
  /-- `BUSLOG`, oldest first (R37). -/
  busLog : List BusEvent
  /-- The turns still to come, next first; when none is left the controller steps (R7, R133; log 1). -/
  agenda : List Turn
  /-- The values the host's reads returned, oldest first (R16; log 2). -/
  hostLog : List Word
  /-- The scripted answers of the oracle, next first; when none is left they are free (R12; log 5). -/
  script : List Answer
  /-- How many questions the oracle has been asked (log 5). -/
  asked : Nat
  /-- How many free bytes have been used (log 6). -/
  staleIdx : Nat
deriving DecidableEq, Repr

/-- `TXN`, which holds a value only while a transaction runs (R38, R82). -/
def State.txn (s : State) : Option Txn :=
  match s.phase with
  | .bus t => some t
  | _ => none

/-- The controller after reset (R140), with given parameters and nothing outside it: no turn, no scripted answer.
`RESULT`, `SESS_ADDR`, `CFG_MIRROR`, `LATCH`, `LATCH_TIMEOUT` and `SCRATCH` "hold no value"; their zeros are the
model's (DESIGN CHOICE, log 3). -/
def State.resetWith (c : Config) : State where
  config := c
  busy := false
  bound := false
  errCode := .ok
  result := 0#32
  resultHeld := false
  sessAddr := 0#7
  cfgMirror := 0#16
  timeout := c.timeoutReset
  phase := .idle
  latch := 0#32
  latchTimeout := 0#32
  fail := none
  scratch := ⟨0#8, 0#8⟩
  busLog := []
  agenda := []
  hostLog := []
  script := []
  asked := 0
  staleIdx := 0

/-- The machine right after reset, with the default parameters (R6, R140). -/
def State.reset : State := State.resetWith Config.default

end Sys2Proof.Machine
end

