-- ==== Sys2Proof/Machine/Ops.lean ====
section
/-! DEFINITION. The named operations on the controller's registers that the meanings share: emitting a bus event,
writing `RESULT`, completing a command with its code (the spec's error reporting in place of trap entry,
60_exceptions.md R129: nothing is saved but `ERRCODE`, no mode changes, no handler runs, and there is nothing to
return from, R130), asking the oracle, opening and closing a transaction, and the reset event. -/

namespace Sys2Proof.Machine

/-- The result of a step of this machine. -/
abbrev Result := Host.Outcome State Fault Refusal

/-- `emit(e)` (R10). -/
def State.emit (e : BusEvent) (s : State) : State := { s with busLog := s.busLog ++ [e] }

/-- `RESULT <- v` (R10, R19). -/
def State.setResult (v : Word) (s : State) : State := { s with result := v, resultHeld := true }

/-- `RESULT <- v` for a result-producing command, nothing for another (R19). -/
def State.setResultOpt (v : Option Word) (s : State) : State :=
  match v with
  | some v => s.setResult v
  | none => s

/-- `CFG_MIRROR <- v` (R28). -/
def State.setMirror (v : Half) (s : State) : State := { s with cfgMirror := v }

/-- The session's construction (R25, R112). -/
def State.bindSession (a : BusAddr) (cfg : Half) (s : State) : State :=
  { s with sessAddr := a, cfgMirror := cfg, bound := true }

/-- `complete(code)` (40_transport.md R82), less the result writes, which come before it. -/
def State.complete (c : Code) (s : State) : State :=
  { s with errCode := c, busy := false, phase := .idle, fail := none }

/-- `raise InvalidArgument`: the command completes and changes only `STATUS` (R128). -/
def State.refuse (s : State) : State := s.complete .invalidArgument

/-- `code(c)` of a not-acknowledge (R90, R123). -/
def NackCause.code : NackCause → Code
  | .addr => .addrNack
  | .data => .dataNack

/-- `code(c)` of an abort (R91, R123). -/
def AbortCause.code : AbortCause → Code
  | .timeout => .timeout
  | .arbLost => .arbLost

/-- A `CMD` write while idle: issue command `w` (R17). -/
def State.issue (w : Word) (s : State) : State :=
  { s with latch := w, latchTimeout := s.timeout, errCode := .ok, busy := true, phase := .decode }

/-- The answer the oracle has ready: the next scripted one, or the free one of this question's number (log 5). -/
def State.nextAnswer (s : State) : Answer :=
  match s.script with
  | a :: _ => a
  | [] => Config.oracle s.asked

/-- One question to the oracle has been asked and answered. -/
def State.advanceOracle (s : State) : State := { s with script := s.script.tail, asked := s.asked + 1 }

/-- `SCRATCH[i] <- b` (R39, R89). -/
def Scratch.put (i : Nat) (b : Byte) (sc : Scratch) : Scratch :=
  match i with
  | 0 => { sc with b0 := b }
  | 1 => { sc with b1 := b }
  | _ => sc

/-- The payload bytes in wire order (R39, R85). -/
def Scratch.bytes (sc : Scratch) : List Byte := [sc.b0, sc.b1]

/-- `SCRATCH <- v`. -/
def State.setScratch (sc : Scratch) (s : State) : State := { s with scratch := sc }

/-- `PHASE <- BUS` with the transaction `t` (R81, R83). -/
def State.setTxn (t : Txn) (s : State) : State := { s with phase := .bus t }

/-- `FAIL <- c` (R88). -/
def State.setFail (c : NackCause) (s : State) : State := { s with fail := some c }

/-- After a transaction the content of `SCRATCH` is a free value (R39; log 6). -/
def State.dropScratch (s : State) : State :=
  { s with scratch := ⟨Config.staleByte s.staleIdx, Config.staleByte (s.staleIdx + 1)⟩, staleIdx := s.staleIdx + 2 }

/-- The end of a command's transaction: `complete(code)`, the staged bytes given up. -/
def State.closeTxn (c : Code) (s : State) : State := s.dropScratch.complete c

/-- The reset event (R140, R142): the controller's registers take their reset values, a running command is
abandoned with no event and no completion. The parameters and the outside agents' own data stay. -/
def State.resetEvent (s : State) : State :=
  { State.resetWith s.config with
    agenda := s.agenda, hostLog := s.hostLog, script := s.script, asked := s.asked, staleIdx := s.staleIdx }

end Sys2Proof.Machine
end

