-- ==== Sys2Proof/Machine/Operands.lean ====
section
/-! DEFINITION. Operand forms and operand checks: the fields of the configuration word (10_state.md R29), the
register pointer (R40), the byte counts (40_transport.md R97, R98), byte order (20_memory.md R49), address bytes
(R84). Each check is the one its command's pseudocode makes. -/

namespace Sys2Proof

/-- The field a field id selects; ids 9 to 15 select none (R68). -/
def Field.ofId (f : BitVec 4) : Option Field :=
  match f.toNat with
  | 0 => some .os
  | 1 => some .mux
  | 2 => some .pga
  | 3 => some .mode
  | 4 => some .dr
  | 5 => some .compMode
  | 6 => some .compPol
  | 7 => some .compLat
  | 8 => some .compQue
  | _ => none

/-- `shift_f`, the field's low bit (R29, R100). -/
def Field.shift : Field → Nat
  | .os => 15
  | .mux => 12
  | .pga => 9
  | .mode => 8
  | .dr => 5
  | .compMode => 4
  | .compPol => 3
  | .compLat => 2
  | .compQue => 0

/-- `width_f` (R29, R100). -/
def Field.width : Field → Nat
  | .os => 1
  | .mux => 3
  | .pga => 3
  | .mode => 1
  | .dr => 3
  | .compMode => 1
  | .compPol => 1
  | .compLat => 1
  | .compQue => 2

/-- `mask_f` (R29, R100). -/
def Field.mask : Field → Half
  | .os => 0x8000#16
  | .mux => 0x7000#16
  | .pga => 0x0E00#16
  | .mode => 0x0100#16
  | .dr => 0x00E0#16
  | .compMode => 0x0010#16
  | .compPol => 0x0008#16
  | .compLat => 0x0004#16
  | .compQue => 0x0003#16

/-- The width check of R100: `v < 2^width_f`. -/
def Field.fits (f : Field) (v : Byte) : Bool := v.toNat < 2 ^ f.width

/-- The four target registers (R40). -/
inductive TargetReg where
  | conversion | config | lowThreshold | highThreshold
deriving DecidableEq, Repr, Inhabited

/-- The pointer byte of a target register (R40). -/
def TargetReg.pointer : TargetReg → Byte
  | .conversion => 0x00#8
  | .config => 0x01#8
  | .lowThreshold => 0x02#8
  | .highThreshold => 0x03#8

/-- `PTR_MAX` (R6): pointer bytes above it are refused (R46). -/
def ptrMax : Nat := 0x03

/-- The pointer check of `BUS_WRITE` and `BUS_READ` (R97, R98). -/
def ptrInRange (reg : Byte) : Bool := reg.toNat ≤ ptrMax

/-- The register check of `SET_THRESH`: LOW or HIGH and nothing else (R117, 90_conflicts.md C6). -/
def isThresholdReg (which : Byte) : Bool :=
  which == TargetReg.lowThreshold.pointer || which == TargetReg.highThreshold.pointer

/-- The byte counts a write accepts: 0 to `N_WRITE_MAX` (R6, R97). -/
def writeCountOk (n : BitVec 2) : Bool := n != 3#2

/-- The byte counts a read accepts: `N_READ_MIN` to `N_READ_MAX` (R6, R98). -/
def readCountOk (n : BitVec 2) : Bool := n != 0#2 && n != 3#2

/-- The selector check of `REQ_CHAN`: a `MUX` code (R114). -/
def selectorOk (sel : Byte) : Bool := sel.toNat ≤ 7

/-- `split16(v)[0] = v[15:8]`, the byte sent first (R49). -/
def hiByte (v : Half) : Byte := v.extractLsb' 8 8

/-- `split16(v)[1] = v[7:0]` (R49). -/
def loByte (v : Half) : Byte := v.extractLsb' 0 8

/-- `split16(v)` (R49). -/
def split16 (v : Half) : List Byte := [hiByte v, loByte v]

/-- `join16(b0, b1) = b0 ++ b1`, `b0` the first byte on the wire (R49). -/
def join16 (b0 b1 : Byte) : Half := b0 ++ b1

/-- `AW = (SESS_ADDR << 1) | 0` (R84). -/
def addrByteW (a : BusAddr) : Byte := a ++ 0#1

/-- `AR = (SESS_ADDR << 1) | 1` (R84). -/
def addrByteR (a : BusAddr) : Byte := a ++ 1#1

end Sys2Proof
end

