-- ==== Sys2Proof/Machine/Codec.lean ====
section
/-! DEFINITION. The Register Codec (41_codec.md): its four pure functions and the four commands that expose them.
The commands need no session, ask no oracle and complete in their `DECODE` step (R111). -/

namespace Sys2Proof

/-- `encode_config(base, f, v)` for a value that fits (R100). -/
def encodeConfig (base : Half) (f : Field) (v : Byte) : Half :=
  (base &&& ~~~f.mask) ||| ((v.setWidth 16 <<< f.shift) &&& f.mask)

/-- `int16(v)` (R9). -/
def int16 (v : Half) : Int := v.toInt

/-- `decode_conversion(b0, b1)` (R103). -/
def decodeConversion (b0 b1 : Byte) : Int := int16 (join16 b0 b1)

/-- The value of `decode_conversion` as the 32-bit pattern `RESULT` takes: `sext_32(join16(b0, b1))` (R104, R116). -/
def conversionWord (b0 b1 : Byte) : Word := (join16 b0 b1).signExtend 32

/-- `decode_status(b0, b1)`: the top bit of the first byte is 0 (R105, R106; 90_conflicts.md C1, C2). -/
def decodeStatus (b0 _b1 : Byte) : Bool := !b0.getLsbD 7

/-- `decode_status` as `RESULT` takes it: 1 for true, 0 for false (R107, R115). -/
def statusResult (b0 b1 : Byte) : Word := if decodeStatus b0 b1 then 1#32 else 0#32

/-- `encode_threshold(v)`: all 16 bits, high byte first, nothing masked (R108; 90_conflicts.md C4). -/
def encodeThreshold (v : Half) : List Byte := split16 v

namespace Machine

/-- `ENC_CONFIG field, value, base` (R102). -/
def execEncConfig (f : BitVec 4) (v : Byte) (base : Half) (s : State) : Result :=
  match Field.ofId f with
  | none => .next s.refuse
  | some fld =>
    if fld.fits v then .next ((s.setResult ((encodeConfig base fld v).setWidth 32)).complete .ok)
    else .next s.refuse

/-- `DEC_CONV b0, b1` (R104). -/
def execDecConv (b : Half) (s : State) : Result :=
  .next ((s.setResult (conversionWord (hiByte b) (loByte b))).complete .ok)

/-- `DEC_STATUS b0, b1` (R107). -/
def execDecStatus (b : Half) (s : State) : Result :=
  .next ((s.setResult (statusResult (hiByte b) (loByte b))).complete .ok)

/-- `ENC_THRESH value` (R109): the bytes of `encode_threshold` in wire order. -/
def execEncThresh (v : Half) (s : State) : Result :=
  .next ((s.setResult ((join16 (hiByte v) (loByte v)).setWidth 32)).complete .ok)

end Machine

end Sys2Proof
end

