-- ==== Sys2Proof/Machine/Transport.lean ====
section
/-! DEFINITION. The Bus Transport (40_transport.md): the two transactions as lists of bus steps, the `DECODE` steps
of `BUS_WRITE` and `BUS_READ`, and what `BUS_READ` puts in `RESULT`. The bus steps themselves are `Machine/Bus.lean`. -/

namespace Sys2Proof.Machine

/-- The bytes a write transaction sends: `[AW, ptr] ++ [SCRATCH[i] for i in 0..n-1]` (R85), each with the cause its
not-acknowledge has (R88). -/
def writeOut (a : BusAddr) (ptr : Byte) (n : Nat) (sc : Scratch) : List BusOp :=
  .tx (addrByteW a) .addr :: .tx ptr .data :: (sc.bytes.take n).map fun b => .tx b .data

/-- The bus steps of `TxnWrite` before its `Stop()` (R85). -/
def writeOps (a : BusAddr) (ptr : Byte) (n : Nat) (sc : Scratch) : List BusOp :=
  .cond .start :: writeOut a ptr n sc

/-- The bus steps of `TxnRead` before its `Stop()` (R86). -/
def readOps (a : BusAddr) (ptr : Byte) (n : Nat) : List BusOp :=
  [.cond .start, .tx (addrByteW a) .addr, .tx ptr .data, .cond .repStart, .tx (addrByteR a) .addr] ++
    (List.range n).map fun i => .rx i (i + 1 == n)

/-- Set up `TxnWrite(ptr, n, data)` in the `DECODE` step: load `SCRATCH`, `TXN <- (WR, ptr, n, data)`,
`PHASE <- BUS` (R81, R85). -/
def State.startWrite (cmd : Instr) (ptr : Byte) (n : Nat) (data : Half) (s : State) : State :=
  let sc : Scratch := ⟨hiByte data, loByte data⟩
  (s.setScratch sc).setTxn { dir := .wr, ptr := ptr, n := n, cmd := cmd, todo := writeOps s.sessAddr ptr n sc }

/-- Set up `TxnRead(ptr, n)` in the `DECODE` step: `TXN <- (RD, ptr, n)`, `PHASE <- BUS` (R81, R86). -/
def State.startRead (cmd : Instr) (ptr : Byte) (n : Nat) (s : State) : State :=
  s.setTxn { dir := .rd, ptr := ptr, n := n, cmd := cmd, todo := readOps s.sessAddr ptr n }

/-- `BUS_WRITE reg, n, data`, its `DECODE` step (R97). -/
def execBusWrite (reg : Byte) (n : BitVec 2) (data : Half) (s : State) : Result :=
  if !s.bound then .next s.refuse
  else if !ptrInRange reg then .next s.refuse
  else if !writeCountOk n then .next s.refuse
  else .next (s.startWrite (.busWrite reg n data) reg n.toNat data)

/-- `BUS_READ reg, n`, its `DECODE` step (R98). -/
def execBusRead (reg : Byte) (n : BitVec 2) (s : State) : Result :=
  if !s.bound then .next s.refuse
  else if !ptrInRange reg then .next s.refuse
  else if !readCountOk n then .next s.refuse
  else .next (s.startRead (.busRead reg n) reg n.toNat)

/-- What a successful `BUS_READ` puts in `RESULT` (R98). -/
def busReadResult (n : BitVec 2) (sc : Scratch) : Word :=
  if n = 2#2 then (join16 sc.b0 sc.b1).setWidth 32 else sc.b0.setWidth 32

end Sys2Proof.Machine
end

