-- ==== Sys2Proof/Machine/Session.lean ====
section
/-! DEFINITION. The Device Session's commands (42_session.md): their `DECODE` steps, and the result writes of the
commands that make a transaction. -/

namespace Sys2Proof.Machine

/-- `BIND addr [, cfg]` (R112). -/
def execBind (df : Bool) (a : BusAddr) (c : Half) (s : State) : Result :=
  if s.bound then .next s.refuse
  else if df && c != 0#16 then .next s.refuse
  else .next ((s.bindSession a (if df then s.config.configDefault else c)).complete .ok)

/-- `SET_FIELD field, value` (R113). `OS` is written only by `REQ_CHAN`. -/
def execSetField (f : BitVec 4) (v : Byte) (s : State) : Result :=
  if !s.bound then .next s.refuse
  else
    match Field.ofId f with
    | none => .next s.refuse
    | some fld =>
      if fld = .os then .next s.refuse
      else if fld.fits v then .next ((s.setMirror (encodeConfig s.cfgMirror fld v)).complete .ok)
      else .next s.refuse

/-- The word `REQ_CHAN sel` makes of the mirror: `MUX <- sel`, `OS <- 1` (R114). -/
def reqChanWord (mirror : Half) (sel : Byte) : Half :=
  encodeConfig (encodeConfig mirror .mux sel) .os 1#8

/-- `REQ_CHAN sel`, its `DECODE` step: the mirror is committed before the write and kept if it fails (R114, R120). -/
def execReqChan (sel : Byte) (s : State) : Result :=
  if !s.bound then .next s.refuse
  else if !selectorOk sel then .next s.refuse
  else
    .next ((s.setMirror (reqChanWord s.cfgMirror sel)).startWrite (.reqChan sel) TargetReg.config.pointer 2
      (reqChanWord s.cfgMirror sel))

/-- `IS_READY`, its `DECODE` step (R115). -/
def execIsReady (s : State) : Result :=
  if !s.bound then .next s.refuse else .next (s.startRead .isReady TargetReg.config.pointer 2)

/-- `READ_CONV`, its `DECODE` step (R116). -/
def execReadConv (s : State) : Result :=
  if !s.bound then .next s.refuse else .next (s.startRead .readConv TargetReg.conversion.pointer 2)

/-- `SET_THRESH which, value`, its `DECODE` step (R117). -/
def execSetThresh (which : Byte) (value : Half) (s : State) : Result :=
  if !s.bound then .next s.refuse
  else if !isThresholdReg which then .next s.refuse
  else .next (s.startWrite (.setThresh which value) which 2 value)

/-- What a command's transaction puts in `RESULT` when it succeeds, from the received bytes (R19, R98, R115, R116);
`none` for a command that produces no result this way. -/
def txnResult (cmd : Instr) (sc : Scratch) : Option Word :=
  match cmd with
  | .busRead _ n => some (busReadResult n sc)
  | .isReady => some (statusResult sc.b0 sc.b1)
  | .readConv => some (conversionWord sc.b0 sc.b1)
  | .busWrite _ _ _ => none
  | .encConfig _ _ _ => none
  | .decConv _ => none
  | .decStatus _ => none
  | .encThresh _ => none
  | .bind _ _ _ => none
  | .setField _ _ => none
  | .reqChan _ => none
  | .setThresh _ _ => none

end Sys2Proof.Machine
end

