-- ==== Sys2Proof/Machine/Bus.lean ====
section
/-! DEFINITION. The bus steps (40_transport.md R87 to R92): one question to the oracle at most, exactly one event. -/

namespace Sys2Proof

/-- What the oracle answers where the controller drives the bus, at `S`, `Sr` and a transmitted byte: `TIMEOUT`,
`ARB_LOST`, or neither (R12). Each failure is available only as its parameter says. -/
def Answer.abortDriven (cfg : Config) (a : Answer) : Option Machine.AbortCause :=
  if cfg.timeoutAnyStep && a.timeout then some .timeout
  else if cfg.arbLoss && a.arbLost then some .arbLost
  else none

/-- What the oracle answers where the controller does not contend for the bus, at a received byte and at a stop:
`TIMEOUT` or not (R12, R89, R92). -/
def Answer.abortUndriven (cfg : Config) (a : Answer) : Option Machine.AbortCause :=
  if cfg.timeoutAnyStep && a.timeout then some .timeout else none

namespace Machine

/-- The event of a condition (R87). -/
def CondKind.event : CondKind → BusEvent
  | .start => .start
  | .repStart => .repStart

/-- A timeout or a lost arbitration: `emit(ABORT(c))`, `complete(code(c))`, no stop condition (R91). -/
def State.abort (c : AbortCause) (s : State) : State := (s.emit (.abort c)).closeTxn c.code

/-- `Cond(k)` answered `a` (R87); `t` is the transaction with this step behind it. -/
def condStep (k : CondKind) (t : Txn) (a : Answer) (s : State) : State :=
  match a.abortDriven s.config with
  | some c => s.abort c
  | none => (s.emit k.event).setTxn t

/-- `Tx(b, nack_cause)` answered `a` (R88). -/
def txStep (b : Byte) (cause : NackCause) (t : Txn) (a : Answer) (s : State) : State :=
  match a.abortDriven s.config with
  | some c => s.abort c
  | none =>
    if a.ack then (s.emit (.tx b .ack)).setTxn t
    else ((s.emit (.tx b .nack)).setFail cause).setTxn t

/-- `Rx(i, last)` answered `a` (R89). -/
def rxStep (i : Nat) (last : Bool) (t : Txn) (a : Answer) (s : State) : State :=
  match a.abortUndriven s.config with
  | some c => s.abort c
  | none =>
    ((s.setScratch (s.scratch.put i a.byte)).emit (.rx a.byte (if last then .nack else .ack))).setTxn t

/-- `Stop()` answered `a`, and on `OK` the command's result writes and `complete(OK)` (R82, R92). -/
def stopStep (cmd : Instr) (a : Answer) (s : State) : State :=
  match a.abortUndriven s.config with
  | some c => s.abort c
  | none => ((s.emit .stop).setResultOpt (txnResult cmd s.scratch)).closeTxn .ok

/-- The stop after a not-acknowledge, which asks nothing (R90). -/
def nackStopStep (c : NackCause) (s : State) : State := (s.emit .stop).closeTxn c.code

/-- The bus step that asks: the transaction's next step, or its final stop (R85, R86), answered `a`. -/
def askedStep (t : Txn) (a : Answer) (s : State) : State :=
  match t.todo with
  | [] => stopStep t.cmd a s
  | .cond k :: rest => condStep k { t with todo := rest } a s
  | .tx b cause :: rest => txStep b cause { t with todo := rest } a s
  | .rx i last :: rest => rxStep i last { t with todo := rest } a s

/-- One bus step of the transaction `t` (R81). -/
def busStep (t : Txn) (s : State) : State :=
  match s.fail with
  | some c => nackStopStep c s
  | none => askedStep t s.nextAnswer s.advanceOracle

end Machine

end Sys2Proof
end

