-- ==== Sys2Proof/Machine/Dispatch.lean ====
section
/-! DEFINITION. One arm per command: the `DECODE` step of a command whose word has been decoded (40_transport.md R81). -/

namespace Sys2Proof.Machine

def exec (i : Instr) (s : State) : Host.Outcome State Fault Refusal :=
  match i with
  | .busWrite reg n data => Sys2Proof.Machine.execBusWrite reg n data s
  | .busRead reg n => Sys2Proof.Machine.execBusRead reg n s
  | .encConfig field value base => Sys2Proof.Machine.execEncConfig field value base s
  | .decConv b => Sys2Proof.Machine.execDecConv b s
  | .decStatus b => Sys2Proof.Machine.execDecStatus b s
  | .encThresh value => Sys2Proof.Machine.execEncThresh value s
  | .bind df addr cfg => Sys2Proof.Machine.execBind df addr cfg s
  | .setField field value => Sys2Proof.Machine.execSetField field value s
  | .reqChan sel => Sys2Proof.Machine.execReqChan sel s
  | .isReady => Sys2Proof.Machine.execIsReady s
  | .readConv => Sys2Proof.Machine.execReadConv s
  | .setThresh which value => Sys2Proof.Machine.execSetThresh which value s

end Sys2Proof.Machine
end

