-- ==== Sys2Proof/Machine/Flags.lean ====
section
/-! DEFINITION. The flags: `STATUS` as the word the host reads (10_state.md R18, R42). There is no condition code. -/

namespace Sys2Proof.Machine

/-- The 4-bit pattern of an outcome (60_exceptions.md R123). -/
def Code.bits : Code → BitVec 4
  | .ok => 0#4
  | .invalidArgument => 1#4
  | .addrNack => 2#4
  | .dataNack => 3#4
  | .arbLost => 4#4
  | .timeout => 5#4

/-- `STATUS` (R18): `ERRCODE` in bits 7:4, `BOUND` in bit 1, `BUSY` in bit 0, every other bit 0. -/
def State.statusWord (s : State) : Word :=
  0#24 ++ s.errCode.bits ++ 0#2 ++ BitVec.ofBool s.bound ++ BitVec.ofBool s.busy

end Sys2Proof.Machine
end

