-- ==== Sys2Proof/Machine/HostAccess.lean ====
section
/-! DEFINITION. The host's side (10_state.md R15 to R22): the six host registers, reads and writes of them, and the
three model faults of 60_exceptions.md R135. -/

namespace Sys2Proof.Machine

/-- The six host registers (R15). -/
inductive HostReg where
  | cmd | status | result | cfgMirror | busAddr | timeout
deriving DecidableEq, Repr, Inhabited

/-- The register at a byte offset of the host register space (R15, R44). -/
def HostReg.ofOffset (offset : Nat) : Option HostReg :=
  match offset with
  | 0x00 => some .cmd
  | 0x04 => some .status
  | 0x08 => some .result
  | 0x0C => some .cfgMirror
  | 0x10 => some .busAddr
  | 0x14 => some .timeout
  | _ => none

/-- The register an access reaches: it is 32 bits wide, aligned and at a listed offset, or it is bad (R16). -/
def HostReg.accessed (width offset : Nat) : Option HostReg :=
  if width = 32 ∧ offset % 4 = 0 then HostReg.ofOffset offset else none

/-- The value a host read of a register returns; `none` in the states in which the spec says that the read faults:
`RESULT` until the first result-producing command succeeds after reset (R19), `CFG_MIRROR` and `BUS_ADDR` while
`STATUS.BOUND = 0` (R20, R21). -/
def State.hostValue (s : State) : HostReg → Option Word
  | .cmd => some 0#32
  | .status => some s.statusWord
  | .result => if s.resultHeld then some s.result else none
  | .cfgMirror => if s.bound then some (s.cfgMirror.setWidth 32) else none
  | .busAddr => if s.bound then some (s.sessAddr.setWidth 32) else none
  | .timeout => some s.timeout

/-- The host sees a value (log 2). -/
def State.hostSees (v : Word) (s : State) : State := { s with hostLog := s.hostLog ++ [v] }

/-- A host read (R16 to R22). It "faults with `UNWRITTEN_READ`" where R19, R20 and R21 say so, and with
`HOST_BAD_ACCESS` where R16 does (R135). -/
def hostRead (width offset : Nat) (s : State) : Result :=
  match HostReg.accessed width offset with
  | none => .fault .hostBadAccess
  | some r =>
    match s.hostValue r with
    | none => .fault .unwrittenRead
    | some v => .next (s.hostSees v)

/-- A host write of `CMD` (R17, R147). -/
def writeCmd (w : Word) (s : State) : Result :=
  if s.busy then .fault .hostOverlap else .next (s.issue w)

/-- A host write of `TIMEOUT` (R22, R147). -/
def writeTimeout (v : Word) (s : State) : Result :=
  if s.busy then .fault .hostOverlap else .next { s with timeout := v }

/-- A host write of a register; a read-only one ignores it (R16). -/
def writeReg (r : HostReg) (v : Word) (s : State) : Result :=
  match r with
  | .cmd => writeCmd v s
  | .timeout => writeTimeout v s
  | .status => .next s
  | .result => .next s
  | .cfgMirror => .next s
  | .busAddr => .next s

/-- A host write (R16, R135). -/
def hostWrite (width offset : Nat) (v : Word) (s : State) : Result :=
  match HostReg.accessed width offset with
  | none => .fault .hostBadAccess
  | some r => writeReg r v s

end Sys2Proof.Machine
end

