-- ==== Sys2Proof/Machine/Controller.lean ====
section
/-! DEFINITION. One controller step, one turn of an agent, and how a command word is put where the next step takes it. -/

namespace Sys2Proof.Machine

/-- The `DECODE` step: the latched word's command runs, or the word is refused (R70, R71, R80, R127). -/
def decodeStep (s : State) : Result :=
  match decode s.latch with
  | .ok i => exec i s
  | .error _ => .next s.refuse

/-- One controller step; an idle controller does not step (R81; log 1). -/
def controllerStep (s : State) : Result :=
  match s.phase with
  | .idle => .next s
  | .decode => decodeStep s
  | .bus t => .next (busStep t s)

/-- One turn of an agent (R7, R133). -/
def runTurn (t : Turn) (s : State) : Result :=
  match t with
  | .hostRead width offset => hostRead width offset s
  | .hostWrite width offset v => hostWrite width offset v s
  | .reset => .next s.resetEvent
  | .controller => controllerStep s

/-- The next turn on the agenda, or a controller step when it is empty (log 1). -/
def nextTurn (s : State) : Result :=
  match s.agenda with
  | [] => controllerStep s
  | t :: rest => runTurn t { s with agenda := rest }

/-- The agenda that gives the controller the very next turn and leaves the others' turns as they were. -/
def controllerFirst (l : List Turn) : List Turn :=
  match l with
  | [] => []
  | t :: rest => .controller :: t :: rest

/-- The state right after the host has written `w` to `CMD`, the controller next (R17; log 7). -/
def placeCommand (w : Word) (s : State) : State :=
  { s.issue w with agenda := controllerFirst s.agenda }

end Sys2Proof.Machine
end

