-- ==== Sys2Proof/Machine/Step.lean ====
section
/-! DEFINITION. The step of the whole machine, and the host's way to have the next step run a given command. -/

namespace Sys2Proof.Machine

/-- One step: one turn of one agent (R7, R133). -/
def step (s : State) : Host.Outcome State Fault Refusal := nextTurn s

/-- `s` with the table entry's word issued, so that the next step is its `DECODE` step. The controller fetches
nothing (R24): the write of `CMD` is how a command comes to run (log 7). -/
def State.withFetchWord (s : State) (nbits w : Nat) : State := placeCommand (tableWord nbits w) s

end Sys2Proof.Machine
end

