-- ==== Sys2Proof/Machine/Assembler.lean ====
section
/-! DEFINITION. The host's tool of 30_encoding.md R75 to R78: from one line of text to one command, with the symbols
and the pseudo-commands. No rule of the controller depends on it (R80) and the machine does not read it. -/

namespace Sys2Proof.Asm

/-- The symbols of R77: registers, fields, selectors. -/
def symbols : List (String × Nat) :=
  [ ("CONVERSION", 0x00), ("CONFIG", 0x01), ("LOW", 0x02), ("LOW_THRESHOLD", 0x02), ("HIGH", 0x03),
    ("HIGH_THRESHOLD", 0x03) ] ++
  [ ("OS", 0), ("MUX", 1), ("PGA", 2), ("MODE", 3), ("DR", 4), ("COMP_MODE", 5), ("COMP_POL", 6), ("COMP_LAT", 7),
    ("COMP_QUE", 8) ] ++
  [ ("DIFF_0_1", 0), ("DIFF_0_3", 1), ("DIFF_1_3", 2), ("DIFF_2_3", 3), ("SINGLE_0", 4), ("SINGLE_1", 5),
    ("SINGLE_2", 6), ("SINGLE_3", 7) ]

/-- The value of a digit, in bases up to 16. -/
def digit (c : Char) : Option Nat :=
  if '0' ≤ c ∧ c ≤ '9' then some (c.toNat - '0'.toNat)
  else if 'a' ≤ c ∧ c ≤ 'f' then some (c.toNat - 'a'.toNat + 10)
  else if 'A' ≤ c ∧ c ≤ 'F' then some (c.toNat - 'A'.toNat + 10)
  else none

/-- The digits of a number after those read so far. -/
def digits (base acc : Nat) : List Char → Option Nat
  | [] => some acc
  | c :: cs =>
    match digit c with
    | some d => if d < base then digits base (acc * base + d) cs else none
    | none => none

/-- A number without a sign: decimal, `0x` hexadecimal or `0b` binary (R75). -/
def unsigned : List Char → Option Nat
  | [] => none
  | '0' :: 'x' :: c :: cs => digits 16 0 (c :: cs)
  | '0' :: 'b' :: c :: cs => digits 2 0 (c :: cs)
  | cs => digits 10 0 cs

/-- A symbol's number, or a number (R75, R77). -/
def value (cs : List Char) : Option Nat :=
  match symbols.find? fun p => p.1.toList == cs with
  | some p => some p.2
  | none => unsigned cs

/-- An operand of a field of `w` bits; a number too wide for its field has no encoding. -/
def operand (w : Nat) (cs : List Char) : Option (BitVec w) :=
  match value cs with
  | some v => if v < 2 ^ w then some (BitVec.ofNat w v) else none
  | none => none

/-- An operand of a 16-bit field: a negative decimal stands for its two's-complement pattern (R75). -/
def operand16 (cs : List Char) : Option Half :=
  match cs with
  | '-' :: ds =>
    match digits 10 0 ds with
    | some v => if ds ≠ [] ∧ v ≤ 2 ^ 15 then some (BitVec.ofInt 16 (-(v : Int))) else none
    | none => none
  | _ => operand 16 cs

/-- A text without the spaces at its front. -/
def dropSpaces : List Char → List Char
  | ' ' :: cs => dropSpaces cs
  | cs => cs

/-- A text without the spaces at its two ends. -/
def trim (cs : List Char) : List Char := (dropSpaces (dropSpaces cs).reverse).reverse

/-- The text up to the first `sep`, and the texts between the further ones. -/
def splitAt (sep : Char) : List Char → List Char × List (List Char)
  | [] => ([], [])
  | c :: cs =>
    let r := splitAt sep cs
    if c = sep then ([], r.1 :: r.2) else (c :: r.1, r.2)

/-- The operands after the mnemonic, separated by commas (R75). -/
def operands (cs : List Char) : List (List Char) :=
  match dropSpaces cs with
  | [] => []
  | c :: rest => let r := splitAt ',' (c :: rest); trim r.1 :: r.2.map trim

/-- The mnemonic and the operands of a line (R75). -/
def fields (line : List Char) : List Char × List (List Char) :=
  let l := trim line
  (l.takeWhile (· ≠ ' '), operands (l.dropWhile (· ≠ ' ')))

/-- The default bus address (R6 `P_BUS_ADDR_DEFAULT`, R45). -/
def busAddrDefault : BusAddr := 0x48#7

/-- The commands of R76 with their operands, by mnemonic. -/
def command (m : String) (ops : List (List Char)) : Option Instr :=
  match m, ops with
  | "BUS_WRITE", [r, n, d] => do some (.busWrite (← operand 8 r) (← operand 2 n) (← operand16 d))
  | "BUS_READ", [r, n] => do some (.busRead (← operand 8 r) (← operand 2 n))
  | "ENC_CONFIG", [f, v, b] => do some (.encConfig (← operand 4 f) (← operand 8 v) (← operand16 b))
  | "DEC_CONV", [b0, b1] => do some (.decConv ((← operand 8 b0) ++ (← operand 8 b1)))
  | "DEC_STATUS", [b0, b1] => do some (.decStatus ((← operand 8 b0) ++ (← operand 8 b1)))
  | "ENC_THRESH", [v] => do some (.encThresh (← operand16 v))
  | "BIND", [a] => do some (.bind true (← operand 7 a) 0#16)
  | "BIND", [a, c] => do some (.bind false (← operand 7 a) (← operand16 c))
  | "SET_FIELD", [f, v] => do some (.setField (← operand 4 f) (← operand 8 v))
  | "REQ_CHAN", [s] => do some (.reqChan (← operand 8 s))
  | "IS_READY", [] => some .isReady
  | "READ_CONV", [] => some .readConv
  | "SET_THRESH", [r, v] => do some (.setThresh (← operand 8 r) (← operand16 v))
  | _, _ => none

/-- The pseudo-commands of R78, each one command. -/
def pseudo (m : String) (ops : List (List Char)) : Option Instr :=
  match m, ops with
  | "BIND", [] => some (.bind true busAddrDefault 0#16)
  | "WRITE_CONFIG", [v] => do some (.busWrite TargetReg.config.pointer 2#2 (← operand16 v))
  | "READ_CONFIG", [] => some (.busRead TargetReg.config.pointer 2#2)
  | "SET_POINTER", [r] => do some (.busWrite (← operand 8 r) 0#2 0#16)
  | "REQ_SINGLE", [n] => do some (.reqChan (4#8 + (← operand 2 n).setWidth 8))
  | "SET_GAIN", [g] => do some (.setField 2#4 (← operand 8 g))
  | "SET_MODE", [v] => do some (.setField 3#4 (← operand 8 v))
  | "SET_RATE", [r] => do some (.setField 4#4 (← operand 8 r))
  | "SET_LOW", [v] => do some (.setThresh TargetReg.lowThreshold.pointer (← operand16 v))
  | "SET_HIGH", [v] => do some (.setThresh TargetReg.highThreshold.pointer (← operand16 v))
  | _, _ => none

/-- One line of text as a command: a mnemonic of R76, or a pseudo-command of R78. -/
def assemble (line : String) : Option Instr :=
  let l := fields line.toList
  (command (String.ofList l.1) l.2).or (pseudo (String.ofList l.1) l.2)

end Sys2Proof.Asm
end

