-- ==== Sys2Proof/WellFormed.lean ====
section
/-! DEFINITION. The well-formed commands: those whose operands pass every check of 60_exceptions.md R124 that looks
at the operands alone (not at the session's state). Every command, well formed or not, has an encoding and decodes;
one that is not well formed completes with `INVALID_ARGUMENT`. The machine does not read this file: its own checks
are `Machine/Operands.lean`'s, and a statement says that the two agree. -/

namespace Sys2Proof

/-- A value `v` fits field number `f`: the id is not reserved and `v` is not wider than the field (R29, R68, R100). -/
def fieldValueFits (f : BitVec 4) (v : Byte) : Bool :=
  match f.toNat with
  | 0 | 3 | 5 | 6 | 7 => v.toNat ≤ 1      -- OS, MODE, COMP_MODE, COMP_POL, COMP_LAT: one bit
  | 1 | 2 | 4 => v.toNat ≤ 7              -- MUX, PGA, DR: three bits
  | 8 => v.toNat ≤ 3                      -- COMP_QUE: two bits
  | _ => false                            -- ids 9 to 15 are reserved

/-- The command's operands pass the checks of R124 that do not depend on the session. -/
def Instr.wf : Instr → Bool
  | .busWrite reg n _ => reg.toNat ≤ 3 && n.toNat ≤ 2
  | .busRead reg n => reg.toNat ≤ 3 && (1 ≤ n.toNat && n.toNat ≤ 2)
  | .encConfig f v _ => fieldValueFits f v
  | .decConv _ => true
  | .decStatus _ => true
  | .encThresh _ => true
  | .bind df _ cfg => !df || cfg.toNat == 0
  | .setField f v => f.toNat != 0 && fieldValueFits f v
  | .reqChan sel => sel.toNat ≤ 7
  | .isReady => true
  | .readConv => true
  | .setThresh which _ => which.toNat == 2 || which.toNat == 3

end Sys2Proof
end

