-- ==== Sys2Proof/Safety.lean ====
section
/-! DEFINITION. The terms the statements use: which commands need the session, which make a transaction and of what
shape, the invariant of every run, the shape of the bus log, and a run that meets no failure. -/

namespace Sys2Proof

/-- The commands that need the session bound (60_exceptions.md R126). -/
def Instr.needsSession : Instr → Bool
  | .busWrite _ _ _ => true
  | .busRead _ _ => true
  | .encConfig _ _ _ => false
  | .decConv _ => false
  | .decStatus _ => false
  | .encThresh _ => false
  | .bind _ _ _ => false
  | .setField _ _ => true
  | .reqChan _ => true
  | .isReady => true
  | .readConv => true
  | .setThresh _ _ => true

/-- The four codec commands (41_codec.md R111). -/
def Instr.isCodec : Instr → Bool
  | .encConfig _ _ _ => true
  | .decConv _ => true
  | .decStatus _ => true
  | .encThresh _ => true
  | .busWrite _ _ _ => false
  | .busRead _ _ => false
  | .bind _ _ _ => false
  | .setField _ _ => false
  | .reqChan _ => false
  | .isReady => false
  | .readConv => false
  | .setThresh _ _ => false

/-- The commands that produce a result (10_state.md R19). -/
def Instr.producesResult : Instr → Bool
  | .busRead _ _ => true
  | .encConfig _ _ _ => true
  | .decConv _ => true
  | .decStatus _ => true
  | .encThresh _ => true
  | .isReady => true
  | .readConv => true
  | .busWrite _ _ _ => false
  | .bind _ _ _ => false
  | .setField _ _ => false
  | .reqChan _ => false
  | .setThresh _ _ => false

/-- Direction, pointer byte and byte count of the transaction a command makes, `none` if it makes no bus access
(20_memory.md R47). -/
def Instr.transaction : Instr → Option (Machine.Dir × Byte × Nat)
  | .busWrite reg n _ => some (.wr, reg, n.toNat)
  | .busRead reg n => some (.rd, reg, n.toNat)
  | .reqChan _ => some (.wr, 0x01#8, 2)
  | .isReady => some (.rd, 0x01#8, 2)
  | .readConv => some (.rd, 0x00#8, 2)
  | .setThresh which _ => some (.wr, which, 2)
  | .encConfig _ _ _ => none
  | .decConv _ => none
  | .decStatus _ => none
  | .encThresh _ => none
  | .bind _ _ _ => none
  | .setField _ _ => none

/-- The oracle answers neither a failure nor a not-acknowledge. -/
def Answer.succeeds (a : Answer) : Bool := !a.timeout && !a.arbLost && a.ack

namespace Machine

/-- The bus steps of a transaction from its beginning (R85, R86). -/
def Txn.allOps (t : Txn) (a : BusAddr) (sc : Scratch) : List BusOp :=
  match t.dir with
  | .wr => writeOps a t.ptr t.n sc
  | .rd => readOps a t.ptr t.n

/-- The 16-bit word a writing command stages, with the mirror as it is while the transaction runs (R97, R114, R117). -/
def stagedWord (mirror : Half) : Instr → Option Half
  | .busWrite _ _ d => some d
  | .reqChan _ => some mirror
  | .setThresh _ v => some v
  | .busRead _ _ => none
  | .encConfig _ _ _ => none
  | .decConv _ => none
  | .decStatus _ => none
  | .encThresh _ => none
  | .bind _ _ _ => none
  | .setField _ _ => none
  | .isReady => none
  | .readConv => none

/-- What holds of a running transaction: it belongs to the latched command, whose operands are in range; the session
is bound; its shape is that command's; what is left of it is an end part of the whole; and a write's bytes are the
command's. -/
structure TxnOk (s : State) (t : Txn) : Prop where
  latched : decode s.latch = .ok t.cmd
  wf : t.cmd.wf = true
  bound : s.bound = true
  shape : t.cmd.transaction = some (t.dir, t.ptr, t.n)
  position : t.todo <:+ t.allOps s.sessAddr s.scratch
  staged : ∀ v, stagedWord s.cfgMirror t.cmd = some v → s.scratch = ⟨hiByte v, loByte v⟩

/-- The controller owns the bus: its transaction has begun. -/
def State.ownsBus (s : State) : Bool :=
  match s.phase with
  | .bus t => decide (t.todo.head? ≠ some (.cond .start))
  | _ => false

/-- The invariant: `BUSY` is set exactly while a command runs (R18, R38); `ERRCODE` is 0 while one runs (R18); a
not-acknowledge waits for its stop only inside a transaction that has begun (R38, R90); a running transaction is as
`TxnOk` says. -/
structure State.Inv (s : State) : Prop where
  busy : s.busy = true ↔ s.phase ≠ .idle
  errCode : s.phase ≠ .idle → s.errCode = .ok
  fail : s.fail ≠ none → s.ownsBus = true
  txn : ∀ t, s.phase = .bus t → TxnOk s t

/-- One event more on the bus: is the bus owned after it, given whether it was before? `none` for an event that may
not stand there. A start needs a free bus; an abort may come in place of the start; everything else needs the bus
owned (R85, R86, R91, R94). -/
def ownAfter (owned : Bool) : BusEvent → Option Bool
  | .start => if owned then none else some true
  | .repStart => if owned then some true else none
  | .tx _ _ => if owned then some true else none
  | .rx _ _ => if owned then some true else none
  | .stop => if owned then some false else none
  | .abort _ => some false

/-- Whether the bus is owned after a log of events; `none` if an event stands where it may not. -/
def ownerAfter (owned : Bool) : List BusEvent → Option Bool
  | [] => some owned
  | e :: es =>
    match ownAfter owned e with
    | some o => ownerAfter o es
    | none => none

/-- `BUSLOG` is a sequence of whole transactions, the last one perhaps still running, none inside another (R94). -/
def State.FramedLog (s : State) : Prop := ownerAfter false s.busLog = some s.ownsBus

/-- `k` steps of the machine, stopping at a fault. -/
abbrev runFor (k : Nat) (s : State) : Result := Host.Core.run Sys2Proof.core k s

/-- The controller steps next: no turn is left, or the next turn is its own. `s0` is the state it steps from. -/
def ControllerNext (s s0 : State) : Prop :=
  (s.agenda = [] ∧ s0 = s) ∨ ∃ rest, s.agenda = .controller :: rest ∧ s0 = { s with agenda := rest }

/-- The next turn is the controller's: no turn is left, or its own comes first. -/
def ControllersTurn (s : State) : Prop := s.agenda = [] ∨ ∃ rest, s.agenda = .controller :: rest

/-- What a whole transaction comes to: its events, its outcome, `SCRATCH` just before it ends, and how many questions
it asked. -/
structure Played where
  events : List BusEvent
  code : Code
  scratch : Scratch
  asked : Nat
deriving DecidableEq, Repr

/-- The rest of a transaction after an event and a question. -/
def Played.after (e : BusEvent) (p : Played) : Played := { p with events := e :: p.events, asked := p.asked + 1 }

/-- A failure that ends the transaction where it is answered, reported as `code`. -/
def Played.aborted (c : AbortCause) (code : Code) (sc : Scratch) : Played := ⟨[.abort c], code, sc, 1⟩

/-- The answer is a timeout: the answer's flag says so and the parameter allows it (R12, log 5). -/
abbrev saysTimeout (cfg : Config) (a : Answer) : Prop := cfg.timeoutAnyStep = true ∧ a.timeout = true

/-- The answer is a lost arbitration, at a step where one can be answered: it is no timeout, its flag says so and the
parameter allows it (R12, log 5). -/
abbrev saysArbLost (cfg : Config) (a : Answer) : Prop :=
  ¬ saysTimeout cfg a ∧ cfg.arbLoss = true ∧ a.arbLost = true

/-- The transactions of R85 and R86 as their pseudocode reads, with no machine state: the steps `ops`, then the stop,
against the answers `ans 0`, `ans 1`, …; the first failure ends them (R93), with its code of R123. -/
def play (cfg : Config) (ops : List BusOp) (sc : Scratch) (ans : Nat → Answer) : Played :=
  match ops with
  | [] =>
    if saysTimeout cfg (ans 0) then .aborted .timeout .timeout sc else ⟨[.stop], .ok, sc, 1⟩
  | .cond k :: rest =>
    if saysTimeout cfg (ans 0) then .aborted .timeout .timeout sc
    else if saysArbLost cfg (ans 0) then .aborted .arbLost .arbLost sc
    else
      (play cfg rest sc fun j => ans (j + 1)).after (match k with | .start => .start | .repStart => .repStart)
  | .tx b cause :: rest =>
    if saysTimeout cfg (ans 0) then .aborted .timeout .timeout sc
    else if saysArbLost cfg (ans 0) then .aborted .arbLost .arbLost sc
    else if (ans 0).ack then (play cfg rest sc fun j => ans (j + 1)).after (.tx b .ack)
    else ⟨[.tx b .nack, .stop], match cause with | .addr => .addrNack | .data => .dataNack, sc, 1⟩
  | .rx i last :: rest =>
    if saysTimeout cfg (ans 0) then .aborted .timeout .timeout sc
    else
      (play cfg rest (sc.put i (ans 0).byte) fun j => ans (j + 1)).after
        (.rx (ans 0).byte (if last then .nack else .ack))

/-- The answer to the `j`-th question from now on. -/
def State.answerAt (s : State) (j : Nat) : Answer := (s.script[j]?).getD (Config.oracle (s.asked + j))

end Machine

end Sys2Proof
end

