-- ==== Sys2Proof/Certificates/Slice0/Obligations.lean ====
section
/-! DEFINITION. The statements for the provers. Each next state is written as a record with the fields it changes, so
every other field is said to be unchanged (the frame). `s0` is the state a controller step starts from: `s` itself when
no turn is left, `s` without that turn when the next turn is the controller's own; that the order of turns is read from
`agenda`, each turn taken off it, is the model's log 1. Where `SCRATCH` is given up at the end of a transaction its bytes
are free values (log 6): the statements hold whatever those are. -/

open Sys2Proof Sys2Proof.Machine

namespace Sys2Proof.Claims

/-- The state after a command has been refused: only `STATUS` (and the phase that goes with `BUSY`) changed (R128). -/
def refused (s : State) : State := { s with errCode := .invalidArgument, busy := false, phase := .idle, fail := none }

/-- The state after a command has completed with `OK`, its own writes aside (R82). -/
def succeeded (s : State) : State := { s with errCode := .ok, busy := false, phase := .idle, fail := none }

/-- The state after a transaction has ended with outcome `c`, having put `evs` on the bus and asked `q` questions since
`s` (R82, R91, R92). That `SCRATCH` then holds two fresh free bytes and `staleIdx` moves past them is the model's log 6;
that the `q` answers come off `script` is its log 5. -/
def ended (c : Code) (evs : List BusEvent) (q : Nat) (s : State) : State :=
  { s with busLog := s.busLog ++ evs, errCode := c, busy := false, phase := .idle, fail := none,
           script := s.script.drop q, asked := s.asked + q,
           scratch := ⟨Config.staleByte s.staleIdx, Config.staleByte (s.staleIdx + 1)⟩, staleIdx := s.staleIdx + 2 }

/-- The state after a bus step that asked one question, put `e` on the bus and left `t` to do; the answer comes off
`script` (log 5). -/
def going (e : BusEvent) (t : Txn) (s : State) : State :=
  { s with busLog := s.busLog ++ [e], phase := .bus t, script := s.script.drop 1, asked := s.asked + 1 }

/-- `SESS_ADDR << 1`, 8 bits (R84). -/
def shifted (a : BusAddr) : Byte := a.setWidth 8 <<< 1

/-- The table of R29 and R100: id, shift, width, mask. -/
def fieldTable : List (Nat × Nat × Nat × Half) :=
  [ (0, 15, 1, 0x8000#16), (1, 12, 3, 0x7000#16), (2, 9, 3, 0x0E00#16), (3, 8, 1, 0x0100#16), (4, 5, 3, 0x00E0#16),
    (5, 4, 1, 0x0010#16), (6, 3, 1, 0x0008#16), (7, 2, 1, 0x0004#16), (8, 0, 2, 0x0003#16) ]

/-- The causes of `INVALID_ARGUMENT` that R124 lists for a decoded command, `bound` the session's state. -/
def invalidCause (bound : Bool) : Instr → Prop
  | .busWrite reg n _ => bound = false ∨ reg.toNat > 3 ∨ n = 3#2
  | .busRead reg n => bound = false ∨ reg.toNat > 3 ∨ n = 0#2 ∨ n = 3#2
  | .encConfig f v _ => f.toNat > 8 ∨ ∃ r ∈ fieldTable, r.1 = f.toNat ∧ 2 ^ r.2.2.1 ≤ v.toNat
  | .decConv _ => False
  | .decStatus _ => False
  | .encThresh _ => False
  | .bind df _ c => bound = true ∨ (df = true ∧ c ≠ 0#16)
  | .setField f v =>
    bound = false ∨ f.toNat > 8 ∨ f.toNat = 0 ∨ ∃ r ∈ fieldTable, r.1 = f.toNat ∧ 2 ^ r.2.2.1 ≤ v.toNat
  | .reqChan sel => bound = false ∨ sel.toNat > 7
  | .isReady => bound = false
  | .readConv => bound = false
  | .setThresh which _ => bound = false ∨ (which ≠ 0x02#8 ∧ which ≠ 0x03#8)

/-- The words R70 and R71 refuse: a reserved opcode, or a row's opcode with a reserved bit set. -/
def reservedWord (w : Word) : Prop :=
  (w.toNat / 2 ^ 28 = 0x0 ∨ w.toNat / 2 ^ 28 = 0x7 ∨ w.toNat / 2 ^ 28 = 0xE ∨ w.toNat / 2 ^ 28 = 0xF) ∨
    ∃ r ∈ opcodeMap, r.pattern.toNat / 2 ^ 28 = w.toNat / 2 ^ 28 ∧ ¬ r.accepts w

/-- The numbers of R123. -/
def errcodeNumber : Code → Nat
  | .ok => 0
  | .invalidArgument => 1
  | .addrNack => 2
  | .dataNack => 3
  | .arbLost => 4
  | .timeout => 5

/-- What a host read at an offset of R15 returns: the list of R15 to R22, `none` where the register holds no value;
`ERRCODE` as R123 numbers it. -/
def readAt (s : State) (offset : Nat) : Option Word :=
  if offset = 0x00 then some 0#32
  else if offset = 0x04 then
    some (BitVec.ofNat 32 (errcodeNumber s.errCode * 16 + s.bound.toNat * 2 + s.busy.toNat))
  else if offset = 0x08 then (if s.resultHeld then some s.result else none)
  else if offset = 0x0C then (if s.bound then some (BitVec.ofNat 32 s.cfgMirror.toNat) else none)
  else if offset = 0x10 then (if s.bound then some (BitVec.ofNat 32 s.sessAddr.toNat) else none)
  else some s.timeout

/-- The result of each result-producing command, its operands in range, from its rule: R98, R102, R104, R107, R109,
R115, R116; `sc` holds the bytes a read received. -/
def resultOf (sc : Scratch) : Instr → Option Word
  | .busRead _ n => some (if n = 2#2 then (sc.b0 ++ sc.b1).setWidth 32 else sc.b0.setWidth 32)
  | .encConfig f v base =>
    (fieldTable.find? fun r => r.1 == f.toNat).map fun r =>
      ((base &&& ~~~r.2.2.2) ||| (v.setWidth 16 <<< r.2.1)).setWidth 32
  | .decConv b => some (BitVec.ofInt 32 b.toInt)
  | .decStatus b => some (if b.toNat < 2 ^ 15 then 1#32 else 0#32)
  | .encThresh v => some (BitVec.ofNat 32 v.toNat)
  | .isReady => some (if sc.b0.toNat < 128 then 1#32 else 0#32)
  | .readConv => some (BitVec.ofInt 32 (sc.b0 ++ sc.b1).toInt)
  | .busWrite _ _ _ => none
  | .bind _ _ _ => none
  | .setField _ _ => none
  | .reqChan _ => none
  | .setThresh _ _ => none

/-- `s` is about to take the `DECODE` step of `i`, with the session bound and no other turn to come. -/
def AtDecode (s : State) (i : Instr) : Prop :=
  s.agenda = [] ∧ s.phase = .decode ∧ s.fail = none ∧ s.bound = true ∧ decode s.latch = .ok i

/-- The next `n` answers of the oracle are `as`, and none of them is a failure or a not-acknowledge. -/
def Answered (s : State) (as : List Answer) (n : Nat) : Prop :=
  as <+: s.script ∧ as.length = n ∧ ∀ a ∈ as, a.succeeds = true

/-- The offsets of R15. -/
def offsets : List Nat := [0x00, 0x04, 0x08, 0x0C, 0x10, 0x14]

end Sys2Proof.Claims

open Sys2Proof.Claims

/-! ## Encoding -/

/-- Decoding an encoded command gives it back, with every operand at every value (R64 to R69). -/
def Obligations.DecodeOfEncodeIsTheCommand : Prop := ∀ i : Instr, decode (encode i) = .ok i

/-- The decoder gives exactly one command, that of the one row of R69's table the word matches, or rejects (R73, which
the spec marks as derived from R64 and R69). -/
def Obligations.DecoderAcceptsExactlyTheOpcodeMap : Prop :=
  (∀ w i, decode w = .ok i →
      encode i = w ∧ ∃ r ∈ opcodeMap, r.mnemonic = i.mnemonic ∧ r.accepts w) ∧
  (∀ w, ∀ r ∈ opcodeMap, r.accepts w → ∃ i, decode w = .ok i ∧ i.mnemonic = r.mnemonic) ∧
  (∀ w, ∀ r₁ ∈ opcodeMap, ∀ r₂ ∈ opcodeMap, r₁.accepts w → r₂.accepts w → r₁ = r₂)

/-- R70, R71: a word with a reserved opcode or a reserved bit is no command, and the `DECODE` step refuses it with
no effect but `STATUS`; every other word is a command. -/
def Obligations.ReservedWordsAreRefused : Prop :=
  (∀ w, reservedWord w ↔ ¬ ∃ i, decode w = .ok i) ∧
  ∀ s s0, ControllerNext s s0 → s0.phase = .decode → reservedWord s0.latch → step s = .next (refused s0)

/-- Words written out from R69's patterns and 95_test_vectors.md stand for the commands they are listed for. -/
def Obligations.ListedWordsDecode : Prop :=
  decode 0x12018583#32 = .ok (.busWrite 0x01#8 2#2 0x8583#16) ∧
  decode 0x21010000#32 = .ok (.busRead 0x01#8 1#2) ∧
  decode 0x31058583#32 = .ok (.encConfig 1#4 5#8 0x8583#16) ∧
  decode 0x40008000#32 = .ok (.decConv 0x8000#16) ∧
  decode 0x88480000#32 = .ok (.bind true 0x48#7 0#16) ∧
  decode 0x92010000#32 = .ok (.setField 2#4 1#8) ∧
  decode 0xA0050000#32 = .ok (.reqChan 5#8) ∧
  decode 0xD002FF9C#32 = .ok (.setThresh 0x02#8 0xFF9C#16) ∧
  decode 0x00000000#32 = .error .reservedOpcode ∧
  decode 0x1A018583#32 = .error .reservedBits

/-- A `DECODE` step runs the latched word's command; `withFetchWord` has the next step run it, which is the model's
log 7. -/
def Obligations.StepRunsTheDecodedCommand : Prop :=
  (∀ s s0 i, ControllerNext s s0 → s0.phase = .decode → decode s0.latch = .ok i → step s = exec i s0) ∧
  ∀ (s : State) (nbits w : Nat) (i : Instr), decodeTableWord nbits w = some i →
    step (s.withFetchWord nbits w) =
      exec i { s with latch := tableWord nbits w, latchTimeout := s.timeout, errCode := .ok, busy := true,
                      phase := .decode }

/-- The assembler's words for the lines of 95_test_vectors.md's programs (R75 to R78). -/
def Obligations.AssemblerMakesTheListedWords : Prop :=
  (Asm.assemble "BIND").map encode = some 0x88480000#32 ∧
  (Asm.assemble "BIND 0x49, 0x8583").map encode = some 0x80498583#32 ∧
  (Asm.assemble "REQ_SINGLE 1").map encode = some 0xA0050000#32 ∧
  (Asm.assemble "SET_LOW -100").map encode = some 0xD002FF9C#32 ∧
  (Asm.assemble "ENC_CONFIG MUX, 5, 0x8583").map encode = some 0x31058583#32 ∧
  (Asm.assemble "READ_CONFIG").map encode = some 0x22010000#32

/-! ## Reset and the host's side -/

/-- The values R140 gives after reset, in `State.reset`: no host read of `RESULT`, `CFG_MIRROR` or `BUS_ADDR` has a
value. (The zeros of log 3 are not stated.) -/
def Obligations.ResetStateIsAsGiven : Prop :=
  State.reset.busy = false ∧ State.reset.bound = false ∧ State.reset.errCode = .ok ∧
  State.reset.timeout = 500#32 ∧ State.reset.phase = .idle ∧ State.reset.txn = none ∧ State.reset.fail = none ∧
  State.reset.busLog = [] ∧
  readAt State.reset 0x04 = some 0#32 ∧ readAt State.reset 0x08 = none ∧ readAt State.reset 0x0C = none ∧
  readAt State.reset 0x10 = none

/-- The reset event between any two steps (R140, R142): whatever runs is abandoned, with no event and no completion,
and the registers take their reset values; what belongs to the agents outside stays (the model's log 11). -/
def Obligations.ResetEventAbandonsEverything : Prop :=
  ∀ s rest, s.agenda = .reset :: rest →
    ∃ t, step s = .next t ∧
      t.busy = false ∧ t.bound = false ∧ t.errCode = .ok ∧ t.timeout = s.config.timeoutReset ∧ t.phase = .idle ∧
      t.txn = none ∧ t.fail = none ∧ t.busLog = [] ∧
      readAt t 0x08 = none ∧ readAt t 0x0C = none ∧ readAt t 0x10 = none ∧
      t.config = s.config ∧ t.agenda = rest ∧ t.hostLog = s.hostLog ∧ t.script = s.script ∧ t.asked = s.asked ∧
      t.staleIdx = s.staleIdx

/-- Host reads at the listed offsets (R15 to R22, R51), `STATUS.ERRCODE` in the numbers 0 to 5 of R123: the value is seen and nothing else changes, or the register
holds no value and the read faults. They are allowed while a command runs (R148). That what is read is appended to
`hostLog` is the model's log 2. -/
def Obligations.HostReadReturnsTheRegister : Prop :=
  ∀ s rest off, off ∈ offsets → s.agenda = .hostRead 32 off :: rest →
    step s = match readAt s off with
      | some v => .next { s with agenda := rest, hostLog := s.hostLog ++ [v] }
      | none => .fault .unwrittenRead

/-- Only 32-bit accesses at listed offsets are defined, the others fault; writes to the read-only registers change
nothing; `CMD` reads 0 (R16). That what is read is appended to `hostLog` is the model's log 2. -/
def Obligations.HostAccessIsWholeRegistersOnly : Prop :=
  (∀ s rest width off, s.agenda = .hostRead width off :: rest → ¬ (width = 32 ∧ off ∈ offsets) →
      step s = .fault .hostBadAccess) ∧
  (∀ s rest width off v, s.agenda = .hostWrite width off v :: rest → ¬ (width = 32 ∧ off ∈ offsets) →
      step s = .fault .hostBadAccess) ∧
  (∀ s rest off v, off ∈ [0x04, 0x08, 0x0C, 0x10] → s.agenda = .hostWrite 32 off v :: rest →
      step s = .next { s with agenda := rest }) ∧
  (∀ s rest, s.agenda = .hostRead 32 0x00 :: rest →
      step s = .next { s with agenda := rest, hostLog := s.hostLog ++ [0x00000000#32] })

/-- R17 (decision D34): a `CMD` write while idle issues the command and clears `ERRCODE`; while busy it is the
violation of R147. -/
def Obligations.CmdWriteIssuesTheCommand : Prop :=
  ∀ s rest w, s.agenda = .hostWrite 32 0x00 w :: rest →
    (s.busy = false →
      step s = .next { s with agenda := rest, latch := w, latchTimeout := s.timeout, errCode := .ok, busy := true,
                              phase := .decode }) ∧
    (s.busy = true → step s = .fault .hostOverlap)

/-- R147: a `CMD` or `TIMEOUT` write while `BUSY = 1` faults; while idle a `TIMEOUT` write sets all 32 bits and
nothing else (R22). -/
def Obligations.WritesWhileBusyFault : Prop :=
  (∀ s rest off v, off ∈ [0x00, 0x14] → s.busy = true → s.agenda = .hostWrite 32 off v :: rest →
      step s = .fault .hostOverlap) ∧
  (∀ s rest v, s.busy = false → s.agenda = .hostWrite 32 0x14 v :: rest →
      step s = .next { s with agenda := rest, timeout := v })

/-- R135: the three host behaviours fault, nothing else does, and no step is refused. -/
def Obligations.OnlyTheThreeHostFaults : Prop :=
  ∀ s,
    (step s = .fault .hostBadAccess ↔
      ∃ rest width off, (s.agenda = .hostRead width off :: rest ∨ ∃ v, s.agenda = .hostWrite width off v :: rest) ∧
        ¬ (width = 32 ∧ off ∈ offsets)) ∧
    (step s = .fault .unwrittenRead ↔
      ∃ rest off, s.agenda = .hostRead 32 off :: rest ∧
        ((off = 0x08 ∧ s.resultHeld = false) ∨ ((off = 0x0C ∨ off = 0x10) ∧ s.bound = false))) ∧
    (step s = .fault .hostOverlap ↔
      ∃ rest off v, s.agenda = .hostWrite 32 off v :: rest ∧ (off = 0x00 ∨ off = 0x14) ∧ s.busy = true) ∧
    ∀ r, step s ≠ .refused r

/-- An idle controller does not step (R81); that its turn is then a step that changes nothing is the model's log 1. -/
def Obligations.IdleControllerDoesNotStep : Prop :=
  ∀ s s0, ControllerNext s s0 → s0.phase = .idle → step s = .next s0

/-! ## The codec -/

/-- The byte-order functions' definitions and the two identities, which R49 marks as derived from the definitions. -/
def Obligations.SplitAndJoinAreInverse : Prop :=
  (∀ v : Half, split16 v = [v.extractLsb' 8 8, v.extractLsb' 0 8]) ∧
  (∀ b0 b1 : Byte, (join16 b0 b1).toNat = b0.toNat * 256 + b1.toNat ∧ (join16 b0 b1).extractLsb' 8 8 = b0) ∧
  (∀ v : Half, join16 (hiByte v) (loByte v) = v) ∧
  (∀ b0 b1 : Byte, split16 (join16 b0 b1) = [b0, b1])

/-- A field's encoding preserves every other bit, can be read back, is idempotent, the last write wins, and two
different fields' encodings commute (R101, which the spec marks as derived from R100 and R29). -/
def Obligations.FieldEncodingPreservesTheRest : Prop :=
  (∀ (w : Half) (f : Field) (v : Byte), f.fits v = true →
      encodeConfig w f v &&& ~~~f.mask = w &&& ~~~f.mask ∧
      (encodeConfig w f v &&& f.mask) >>> f.shift = v.setWidth 16 ∧
      encodeConfig (encodeConfig w f v) f v = encodeConfig w f v) ∧
  (∀ (w : Half) (f : Field) (v₁ v₂ : Byte), f.fits v₁ = true → f.fits v₂ = true →
      encodeConfig (encodeConfig w f v₁) f v₂ = encodeConfig w f v₂) ∧
  (∀ (w : Half) (f g : Field) (v u : Byte), f ≠ g → f.fits v = true → g.fits u = true →
      encodeConfig (encodeConfig w f v) g u = encodeConfig (encodeConfig w g u) f v)

/-- The codec's round trip, as functions and as the two commands run one after the other (R110, which the spec marks as
derived from R103, R108 and R49). -/
def Obligations.CodecRoundTrip : Prop :=
  (∀ v : Half, ∃ h l, encodeThreshold v = [h, l] ∧ join16 h l = v ∧ decodeConversion h l = int16 v) ∧
  (∀ (v : Half) (s : State), ∃ t u, exec (.encThresh v) s = .next t ∧
      exec (.decConv (t.result.setWidth 16)) t = .next u ∧ u.result = BitVec.ofInt 32 v.toInt)

/-- R106: `decode_status` is true exactly when the first byte's top bit is 0, whatever the other bits. -/
def Obligations.StatusReadsOneBit : Prop :=
  ∀ b0 b1 : Byte, decodeStatus b0 b1 = true ↔ b0.toNat < 128

/-- `ENC_CONFIG` (R102, R100): the field is cleared and the value put there, or the command is refused; in every state,
bound or not, and only `RESULT` and `STATUS` change. -/
def Obligations.EncConfigPutsTheFieldInResult : Prop :=
  (∀ (s : State) (f : BitVec 4) (v : Byte) (base : Half), ∀ r ∈ fieldTable, f.toNat = r.1 → v.toNat < 2 ^ r.2.2.1 →
      exec (.encConfig f v base) s =
        .next (succeeded { s with
          result := ((base &&& ~~~r.2.2.2) ||| (v.setWidth 16 <<< r.2.1)).setWidth 32, resultHeld := true })) ∧
  (∀ (s : State) (f : BitVec 4) (v : Byte) (base : Half),
      (8 < f.toNat ∨ ∃ r ∈ fieldTable, f.toNat = r.1 ∧ 2 ^ r.2.2.1 ≤ v.toNat) →
      exec (.encConfig f v base) s = .next (refused s))

/-- `DEC_CONV`, `DEC_STATUS`, `ENC_THRESH` (R104, R107, R109): their results, in every state; only `RESULT` and
`STATUS` change. -/
def Obligations.PureDecodersWriteTheirResult : Prop :=
  ∀ (b : Half) (s : State),
    exec (.decConv b) s =
      .next (succeeded { s with result := BitVec.ofInt 32 b.toInt, resultHeld := true }) ∧
    exec (.decStatus b) s =
      .next (succeeded { s with result := if b.toNat < 2 ^ 15 then 0x00000001#32 else 0x00000000#32,
                                resultHeld := true }) ∧
    exec (.encThresh b) s =
      .next (succeeded { s with result := BitVec.ofNat 32 b.toNat, resultHeld := true })

/-- R111: a codec command completes in its `DECODE` step, reads only the latched word, and writes only `RESULT` and
`STATUS`: two runs with the same word agree. -/
def Obligations.CodecHasNoState : Prop :=
  ∀ i : Instr, i.isCodec = true →
    ∀ s₁ s₂ u₁ u₂, ControllerNext s₁ u₁ → ControllerNext s₂ u₂ → u₁.phase = .decode → u₂.phase = .decode →
      decode u₁.latch = .ok i → u₂.latch = u₁.latch →
      ∃ t₁ t₂, step s₁ = .next t₁ ∧ step s₂ = .next t₂ ∧ t₁.phase = .idle ∧ t₁.errCode = t₂.errCode ∧
        (t₁.errCode = .ok → t₁.result = t₂.result ∧ t₁.resultHeld = true ∧ t₂.resultHeld = true) ∧
        t₁ = { u₁ with result := t₁.result, resultHeld := t₁.resultHeld, errCode := t₁.errCode, busy := false,
                       phase := .idle, fail := none }

/-! ## The session's commands and the checks -/

/-- R124, R126: a `DECODE` step ends in `INVALID_ARGUMENT` for exactly the listed causes. -/
def Obligations.InvalidArgumentHasExactlyItsCauses : Prop :=
  ∀ s s0, ControllerNext s s0 → s0.phase = .decode →
    ((∃ t, step s = .next t ∧ t.errCode = .invalidArgument ∧ t.phase = .idle) ↔
      reservedWord s0.latch ∨ ∃ i, decode s0.latch = .ok i ∧ invalidCause s0.bound i)

/-- R128: a command refused with `INVALID_ARGUMENT` changes only `STATUS`. -/
def Obligations.RefusedCommandChangesOnlyStatus : Prop :=
  ∀ s s0 t, ControllerNext s s0 → s0.phase = .decode → step s = .next t → t.errCode = .invalidArgument →
    t.phase = .idle → t = refused s0

/-- The well-formed commands are those that no operand check refuses: with the session as the command needs it, a
command is refused exactly when it is not well formed (R124, R127). -/
def Obligations.WellFormedCommandsAreNotRefused : Prop :=
  ∀ (i : Instr) (s : State), (i.needsSession = true → s.bound = true) →
    ((∃ df a c, i = .bind df a c) → s.bound = false) →
    (exec i s = .next (refused s) ↔ i.wf = false)

/-- R131: no outcome is fatal: every command, in every state, completes or starts its transaction, and the `CMD` write
after any completion is accepted. -/
def Obligations.NoCommandIsFatal : Prop :=
  (∀ (i : Instr) (s : State), ∃ t, exec i s = .next t) ∧
  (∀ s s0 t rest w, ControllerNext s s0 → s0.phase ≠ .idle → step s = .next t → t.phase = .idle →
      ∃ u, step { t with agenda := .hostWrite 32 0x00 w :: rest } = .next u ∧ u.phase = .decode ∧ u.latch = w)

/-- `BIND` (R112): unbound it makes the session, with the default word or the given one; a second `BIND`, or `DF = 1`
with a word, is refused. -/
def Obligations.BindMakesTheSessionOnce : Prop :=
  ∀ (df : Bool) (a : BusAddr) (c : Half) (s : State),
    (s.bound = false → df = true → c = 0#16 → exec (.bind df a c) s =
      .next (succeeded { s with bound := true, sessAddr := a, cfgMirror := s.config.configDefault })) ∧
    (s.bound = false → df = false → exec (.bind df a c) s =
      .next (succeeded { s with bound := true, sessAddr := a, cfgMirror := c })) ∧
    (s.bound = true ∨ (df = true ∧ c ≠ 0#16) → exec (.bind df a c) s = .next (refused s))

/-- `SET_FIELD` (R113): one field of the mirror changes, `OS` excepted. -/
def Obligations.SetFieldChangesOneField : Prop :=
  (∀ (s : State) (f : BitVec 4) (v : Byte), s.bound = true →
      ∀ r ∈ fieldTable, r.1 ≠ 0 → f.toNat = r.1 → v.toNat < 2 ^ r.2.2.1 →
      exec (.setField f v) s =
        .next (succeeded { s with cfgMirror := (s.cfgMirror &&& ~~~r.2.2.2) ||| (v.setWidth 16 <<< r.2.1) })) ∧
  (∀ (s : State) (f : BitVec 4) (v : Byte),
      (s.bound = false ∨ f.toNat = 0 ∨ 8 < f.toNat ∨ ∃ r ∈ fieldTable, f.toNat = r.1 ∧ 2 ^ r.2.2.1 ≤ v.toNat) →
      exec (.setField f v) s = .next (refused s))

/-- `REQ_CHAN`, its `DECODE` step (R114, R120): only bits 15:12 of the mirror change, at once, and the write of the new
word to CONFIG is set up. -/
def Obligations.ReqChanCommitsTheMirrorAndStarts : Prop :=
  (∀ (s : State) (sel : Byte), s.bound = true → sel.toNat ≤ 7 →
      ∃ w : Half, w = ((s.cfgMirror &&& 0x0FFF#16) ||| 0x8000#16 ||| (sel.setWidth 16 <<< 12)) ∧
        exec (.reqChan sel) s =
          .next { s with
            cfgMirror := w
            scratch := ⟨w.extractLsb' 8 8, w.extractLsb' 0 8⟩
            phase := .bus {
              dir := .wr, ptr := 0x01#8, n := 2, cmd := .reqChan sel
              todo := [ .cond .start, .tx (shifted s.sessAddr) .addr, .tx 0x01#8 .data, .tx (w.extractLsb' 8 8) .data,
                        .tx (w.extractLsb' 0 8) .data ] } }) ∧
  (∀ s sel, (s.bound = false ∨ 7 < sel.toNat) → exec (.reqChan sel) s = .next (refused s))

/-- `BUS_WRITE` and `SET_THRESH`, their `DECODE` steps (R97, R117): the payload is staged and the write set up, or the
command is refused. -/
def Obligations.WriteCommandsStageAndStart : Prop :=
  (∀ s reg n d, s.bound = true → reg.toNat ≤ 3 → n ≠ 3#2 →
      exec (.busWrite reg n d) s =
        .next { s with
          scratch := ⟨d.extractLsb' 8 8, d.extractLsb' 0 8⟩
          phase := .bus {
            dir := .wr, ptr := reg, n := n.toNat, cmd := .busWrite reg n d
            todo := [.cond .start, .tx (shifted s.sessAddr) .addr, .tx reg .data] ++
              ([BusOp.tx (d.extractLsb' 8 8) .data, .tx (d.extractLsb' 0 8) .data].take n.toNat) } }) ∧
  (∀ s reg n d, (s.bound = false ∨ 3 < reg.toNat ∨ n = 3#2) → exec (.busWrite reg n d) s = .next (refused s)) ∧
  (∀ s which v, s.bound = true → (which = 0x02#8 ∨ which = 0x03#8) →
      exec (.setThresh which v) s =
        .next { s with
          scratch := ⟨v.extractLsb' 8 8, v.extractLsb' 0 8⟩
          phase := .bus {
            dir := .wr, ptr := which, n := 2, cmd := .setThresh which v
            todo := [ .cond .start, .tx (shifted s.sessAddr) .addr, .tx which .data, .tx (v.extractLsb' 8 8) .data,
                      .tx (v.extractLsb' 0 8) .data ] } }) ∧
  (∀ s which v, (s.bound = false ∨ (which ≠ 0x02#8 ∧ which ≠ 0x03#8)) →
      exec (.setThresh which v) s = .next (refused s))

/-- `BUS_READ`, `IS_READY` and `READ_CONV`, their `DECODE` steps (R98, R115, R116): the read is set up and nothing else
changes, or the command is refused. -/
def Obligations.ReadCommandsStart : Prop :=
  let begin (ptr : Byte) (n : Nat) (cmd : Instr) (recv : List BusOp) (s : State) : State :=
    { s with phase := .bus {
        dir := .rd, ptr := ptr, n := n, cmd := cmd
        todo := [ .cond .start, .tx (shifted s.sessAddr) .addr, .tx ptr .data, .cond .repStart,
                  .tx (shifted s.sessAddr ||| 1#8) .addr ] ++ recv } }
  (∀ s reg, s.bound = true → reg.toNat ≤ 3 →
      exec (.busRead reg 1#2) s = .next (begin reg 1 (.busRead reg 1#2) [.rx 0 true] s) ∧
      exec (.busRead reg 2#2) s = .next (begin reg 2 (.busRead reg 2#2) [.rx 0 false, .rx 1 true] s)) ∧
  (∀ s reg n, (s.bound = false ∨ 3 < reg.toNat ∨ n = 0#2 ∨ n = 3#2) → exec (.busRead reg n) s = .next (refused s)) ∧
  (∀ s, s.bound = true →
      exec .isReady s = .next (begin 0x01#8 2 .isReady [.rx 0 false, .rx 1 true] s) ∧
      exec .readConv s = .next (begin 0x00#8 2 .readConv [.rx 0 false, .rx 1 true] s)) ∧
  (∀ s, s.bound = false → exec .isReady s = .next (refused s) ∧ exec .readConv s = .next (refused s))

/-! ## The bus steps -/

/-- The two address bytes of R84; that W = 0 and R = 1 is the spec's own general knowledge (G8; log 4). -/
def Obligations.AddressBytesCarryTheDirection : Prop :=
  (∀ a : BusAddr, (addrByteW a).toNat = 2 * a.toNat ∧ (addrByteR a).toNat = 2 * a.toNat + 1) ∧
  addrByteW 0x48#7 = 0x90#8 ∧ addrByteR 0x48#7 = 0x91#8

/-- `Cond(k)` (R87), with the answers that are failures (R12) and their codes (R123) spelled out. On an abort `ended` gives `SCRATCH` up for free bytes, of which R87 says nothing: that is the
model's log 6, and the coding of the answer its log 5. -/
def Obligations.ConditionStepEmitsOrAborts : Prop :=
  ∀ s s0 t k rest, ControllerNext s s0 → s0.phase = .bus t → s0.fail = none → t.todo = .cond k :: rest →
    (¬ saysTimeout s0.config (s0.answerAt 0) → ¬ saysArbLost s0.config (s0.answerAt 0) →
      step s = .next (going (match k with | .start => .start | .repStart => .repStart) { t with todo := rest } s0)) ∧
    (saysTimeout s0.config (s0.answerAt 0) → step s = .next (ended .timeout [.abort .timeout] 1 s0)) ∧
    (saysArbLost s0.config (s0.answerAt 0) → step s = .next (ended .arbLost [.abort .arbLost] 1 s0))

/-- `Tx(b, nack_cause)` (R88), with the answers that are failures (R12) and their codes (R123) spelled out, and the cause that goes with each byte of the two transactions: the address bytes'
not-acknowledge is `ADDR_NACK`, that of the pointer byte and of the payload bytes `DATA_NACK`. On an abort `ended` gives
`SCRATCH` up for free bytes, of which R88 says nothing: the model's log 6; the coding of the answer is its log 5. -/
def Obligations.TransmitStepChecksTheAcknowledge : Prop :=
  (∀ a ptr n sc, ∃ rest, writeOps a ptr n sc = .cond .start :: .tx (shifted a) .addr :: .tx ptr .data :: rest ∧
    ∀ op ∈ rest, ∃ b, op = .tx b .data) ∧
  (∀ a ptr n, ∃ rest, readOps a ptr n = .cond .start :: .tx (shifted a) .addr :: .tx ptr .data :: .cond .repStart ::
      .tx (shifted a ||| 1#8) .addr :: rest ∧ ∀ op ∈ rest, ∃ i last, op = .rx i last) ∧
  ∀ s s0 t b cause rest, ControllerNext s s0 → s0.phase = .bus t → s0.fail = none → t.todo = .tx b cause :: rest →
    (¬ saysTimeout s0.config (s0.answerAt 0) → ¬ saysArbLost s0.config (s0.answerAt 0) →
      (s0.answerAt 0).ack = true →
      step s = .next (going (.tx b .ack) { t with todo := rest } s0)) ∧
    (¬ saysTimeout s0.config (s0.answerAt 0) → ¬ saysArbLost s0.config (s0.answerAt 0) →
      (s0.answerAt 0).ack = false →
      step s = .next { going (.tx b .nack) { t with todo := rest } s0 with fail := some cause }) ∧
    (saysTimeout s0.config (s0.answerAt 0) → step s = .next (ended .timeout [.abort .timeout] 1 s0)) ∧
    (saysArbLost s0.config (s0.answerAt 0) → step s = .next (ended .arbLost [.abort .arbLost] 1 s0))

/-- `Rx(i, last)` (R89), for the two places of `SCRATCH`: it fails exactly when the answer is a timeout, whatever its
arbitration flag. On the abort `ended` gives `SCRATCH` up for free bytes, of
which R89 says nothing: the model's log 6; the coding of the answer is its log 5. -/
def Obligations.ReceiveStepStoresAndAnswers : Prop :=
  ∀ s s0 t i last rest, ControllerNext s s0 → s0.phase = .bus t → s0.fail = none → t.todo = .rx i last :: rest →
    i < 2 →
    (¬ saysTimeout s0.config (s0.answerAt 0) →
      step s = .next { going (.rx (s0.answerAt 0).byte (if last = true then .nack else .ack)) { t with todo := rest } s0
        with
          scratch := if i = 0 then ⟨(s0.answerAt 0).byte, s0.scratch.b1⟩ else ⟨s0.scratch.b0, (s0.answerAt 0).byte⟩ }) ∧
    (saysTimeout s0.config (s0.answerAt 0) → step s = .next (ended .timeout [.abort .timeout] 1 s0))

/-- The stop after a not-acknowledge asks nothing and reports the byte's cause (R90). That `SCRATCH` is given up for
free bytes is the model's log 6. -/
def Obligations.NackIsFollowedByStop : Prop :=
  ∀ s s0 t c, ControllerNext s s0 → s0.phase = .bus t → s0.fail = some c →
    step s = .next (ended (match c with | .addr => .addrNack | .data => .dataNack) [.stop] 0 s0)

/-- The final stop completes the command with its result, or times out exactly when the answer is a timeout (R92). That `SCRATCH` is given up for free bytes
is the model's log 6; the coding of the answer is its log 5. -/
def Obligations.FinalStopCompletes : Prop :=
  ∀ s s0 t, ControllerNext s s0 → s0.phase = .bus t → s0.fail = none → t.todo = [] →
    (¬ saysTimeout s0.config (s0.answerAt 0) →
      step s = .next (ended .ok [.stop] 1
        (match t.cmd with
          | .busRead _ n => { s0 with result := if n = 2#2 then (s0.scratch.b0 ++ s0.scratch.b1).setWidth 32
                                                else s0.scratch.b0.setWidth 32, resultHeld := true }
          | .isReady => { s0 with result := if s0.scratch.b0.toNat < 128 then 1#32 else 0#32, resultHeld := true }
          | .readConv =>
            { s0 with result := BitVec.ofInt 32 (s0.scratch.b0 ++ s0.scratch.b1).toInt, resultHeld := true }
          | _ => s0))) ∧
    (saysTimeout s0.config (s0.answerAt 0) → step s = .next (ended .timeout [.abort .timeout] 1 s0))

/-- R81: a bus step appends exactly one event and asks at most one question. -/
def Obligations.OneEventPerBusStep : Prop :=
  ∀ s s0 t, ControllerNext s s0 → s0.phase = .bus t →
    ∃ u e, step s = .next u ∧ u.busLog = s0.busLog ++ [e] ∧ (u.asked = s0.asked ∨ u.asked = s0.asked + 1)

/-- R12: the parameters rule the oracle's failures out: without `P_ARB_LOSS` no controller step ends in `ARB_LOST`,
without `P_TIMEOUT_ANY_STEP` none in `TIMEOUT`. The coding of the answers is the model's log 5. -/
def Obligations.ParametersRuleFailuresOut : Prop :=
  ∀ s s0 u, ControllerNext s s0 → s0.phase ≠ .idle → step s = .next u →
    (s0.config.arbLoss = false → s0.errCode ≠ .arbLost → u.errCode ≠ .arbLost) ∧
    (s0.config.timeoutAnyStep = false → s0.errCode ≠ .timeout → u.errCode ≠ .timeout)

/-! ## Whole commands

In each of these `SCRATCH` ends as free bytes (the model's log 6) and the answers come from `script` (its log 5). -/

/-- R85, R97: `BUS_WRITE` from its `DECODE` step to its completion, when every answer succeeds: `n + 4` bus steps and
events, the payload high byte first, and nothing but `STATUS` and the bus log to show for it. -/
def Obligations.BusWriteRunsToCompletion : Prop :=
  ∀ (s : State) (reg : Byte) (n : BitVec 2) (d : Half) (as : List Answer),
    AtDecode s (.busWrite reg n d) → reg.toNat ≤ 3 → n ≠ 3#2 → Answered s as (n.toNat + 4) →
    runFor (n.toNat + 5) s = .next (ended .ok
      ([.start, .tx (shifted s.sessAddr) .ack, .tx reg .ack] ++
        ([BusEvent.tx (d.extractLsb' 8 8) .ack, .tx (d.extractLsb' 0 8) .ack].take n.toNat) ++ [.stop])
      (n.toNat + 4) s)

/-- R85, R117: `SET_THRESH` likewise, all 16 bits sent. -/
def Obligations.SetThreshRunsToCompletion : Prop :=
  ∀ (s : State) (which : Byte) (v : Half) (as : List Answer),
    AtDecode s (.setThresh which v) → (which = 0x02#8 ∨ which = 0x03#8) → Answered s as 6 →
    runFor 7 s = .next (ended .ok
      [ .start, .tx (shifted s.sessAddr) .ack, .tx which .ack, .tx (v.extractLsb' 8 8) .ack,
        .tx (v.extractLsb' 0 8) .ack, .stop ] 6 s)

/-- R85, R114: `REQ_CHAN` likewise: the mirror's bits 15:12 become `OS = 1` and the selector, and that word is written
to CONFIG. -/
def Obligations.ReqChanRunsToCompletion : Prop :=
  ∀ (s : State) (sel : Byte) (as : List Answer),
    AtDecode s (.reqChan sel) → sel.toNat ≤ 7 → Answered s as 6 →
    ∃ w : Half, w = ((s.cfgMirror &&& 0x0FFF#16) ||| 0x8000#16 ||| (sel.setWidth 16 <<< 12)) ∧
      runFor 7 s = .next (ended .ok
        [ .start, .tx (shifted s.sessAddr) .ack, .tx 0x01#8 .ack, .tx (w.extractLsb' 8 8) .ack,
          .tx (w.extractLsb' 0 8) .ack, .stop ] 6 { s with cfgMirror := w })

/-- R86, R98: `BUS_READ` of one and of two bytes to its completion: the repeated start, the bytes with all but the
last acknowledged, the stop, and the bytes in `RESULT`. -/
def Obligations.BusReadRunsToCompletion : Prop :=
  ∀ (s : State) (reg : Byte) (n : BitVec 2) (as : List Answer) (b0 b1 : Byte),
    AtDecode s (.busRead reg n) → reg.toNat ≤ 3 → Answered s as (n.toNat + 6) →
    as[5]?.map Answer.byte = some b0 → as[6]?.map Answer.byte = some b1 →
    (n = 1#2 → runFor 8 s = .next (ended .ok
      [ .start, .tx (shifted s.sessAddr) .ack, .tx reg .ack, .repStart, .tx (shifted s.sessAddr ||| 1#8) .ack,
        .rx b0 .nack, .stop ] 7 { s with result := BitVec.ofNat 32 b0.toNat, resultHeld := true })) ∧
    (n = 2#2 → runFor 9 s = .next (ended .ok
      [ .start, .tx (shifted s.sessAddr) .ack, .tx reg .ack, .repStart, .tx (shifted s.sessAddr ||| 1#8) .ack,
        .rx b0 .ack, .rx b1 .nack, .stop ] 8
      { s with result := BitVec.ofNat 32 (b0.toNat * 256 + b1.toNat), resultHeld := true }))

/-- R86, R115: `IS_READY` to its completion: `RESULT` is 1 exactly when the first byte's top bit was 0; the mirror and
all else unchanged. -/
def Obligations.IsReadyRunsToCompletion : Prop :=
  ∀ (s : State) (as : List Answer) (b0 b1 : Byte),
    AtDecode s .isReady → Answered s as 8 →
    as[5]?.map Answer.byte = some b0 → as[6]?.map Answer.byte = some b1 →
    runFor 9 s = .next (ended .ok
      [ .start, .tx (shifted s.sessAddr) .ack, .tx 0x01#8 .ack, .repStart, .tx (shifted s.sessAddr ||| 1#8) .ack,
        .rx b0 .ack, .rx b1 .nack, .stop ] 8
      { s with result := if b0.toNat < 128 then 0x00000001#32 else 0x00000000#32, resultHeld := true })

/-- R86, R116: `READ_CONV` to its completion: `RESULT` is the signed value of the two bytes, high byte first. -/
def Obligations.ReadConvRunsToCompletion : Prop :=
  ∀ (s : State) (as : List Answer) (b0 b1 : Byte),
    AtDecode s .readConv → Answered s as 8 →
    as[5]?.map Answer.byte = some b0 → as[6]?.map Answer.byte = some b1 →
    runFor 9 s = .next (ended .ok
      [ .start, .tx (shifted s.sessAddr) .ack, .tx 0x00#8 .ack, .repStart, .tx (shifted s.sessAddr ||| 1#8) .ack,
        .rx b0 .ack, .rx b1 .nack, .stop ] 8
      { s with result := BitVec.ofInt 32 (if b0.toNat < 128 then ((b0.toNat * 256 + b1.toNat : Nat) : Int)
                                          else ((b0.toNat * 256 + b1.toNat : Nat) : Int) - 65536),
               resultHeld := true })

/-- R85 to R93: run against the machine, a transaction comes to what its pseudocode comes to (`play`), whatever the
oracle answers and wherever it fails: the events, the outcome, and on success the command's result. `play` spells out
which answers are failures (R12) and the code of each cause (R123). The coding of the
answers is the model's log 5. -/
def Obligations.TransactionRefinesItsPseudocode : Prop :=
  ∀ s t, s.agenda = [] → s.phase = .bus t → s.fail = none →
    ∃ k u, runFor k s = .next u ∧ u.phase = .idle ∧ u.busy = false ∧ u.fail = none ∧
      (let p := play s.config t.todo s.scratch s.answerAt
       u.busLog = s.busLog ++ p.events ∧ u.errCode = p.code ∧ u.asked = s.asked + p.asked ∧
       (p.code ≠ .ok → u.result = s.result ∧ u.resultHeld = s.resultHeld) ∧
       (p.code = .ok → ∀ v, txnResult t.cmd p.scratch = some v → u.result = v ∧ u.resultHeld = true) ∧
       u.cfgMirror = s.cfgMirror ∧ u.sessAddr = s.sessAddr ∧ u.bound = s.bound)

/-- Every transaction completes within `n + 6` bus steps, whatever the oracle answers (R96, which the spec marks as
derived from R95). -/
def Obligations.TransactionsEnd : Prop :=
  ∀ s t, s.Inv → s.agenda = [] → s.phase = .bus t →
    ∃ k, k ≤ t.n + 6 ∧ ∃ u, runFor k s = .next u ∧ u.phase = .idle ∧ u.busy = false

/-- R99: a command whose transaction fails changes, in its bus steps, only `STATUS` and the bus log of what the host can
see; a `REQ_CHAN`'s mirror stays as its `DECODE` step left it (R120). -/
def Obligations.FailedTransactionLeavesTheRest : Prop :=
  ∀ s s0 t u, ControllerNext s s0 → s0.phase = .bus t → step s = .next u →
    u.cfgMirror = s0.cfgMirror ∧ u.sessAddr = s0.sessAddr ∧ u.bound = s0.bound ∧ u.timeout = s0.timeout ∧
    (u.phase = .idle → u.errCode ≠ .ok → u.result = s0.result ∧ u.resultHeld = s0.resultHeld)

/-! ## The whole machine -/

/-- The invariant holds after reset. -/
def Obligations.ResetMeetsTheInvariant : Prop := ∀ c : Config, (State.resetWith c).Inv ∧ (State.resetWith c).FramedLog

/-- Every step of every agent keeps the invariant (R18, R38, R61, R83). -/
def Obligations.StepKeepsTheInvariant : Prop := ∀ s t, s.Inv → step s = .next t → t.Inv

/-- R94: with the invariant, every step keeps the bus log a sequence of whole transactions, none inside another. -/
def Obligations.StepKeepsTheBusFramed : Prop := ∀ s t, s.Inv → s.FramedLog → step s = .next t → t.FramedLog

/-- R26, R141: the bus address of a bound session never changes and the session stays bound, but for a reset. -/
def Obligations.BoundAddressIsImmutable : Prop :=
  ∀ s t, s.bound = true → step s = .next t → s.agenda.head? ≠ some .reset →
    t.bound = true ∧ t.sessAddr = s.sessAddr

/-- R26: the address is written only by the controller's step of a successful `BIND`, and only while unbound. -/
def Obligations.OnlyBindWritesTheAddress : Prop :=
  ∀ s t, step s = .next t → s.agenda.head? ≠ some .reset → t.sessAddr ≠ s.sessAddr ∨ t.bound ≠ s.bound →
    ControllersTurn s ∧ s.bound = false ∧ s.phase = .decode ∧
      ∃ df a c, decode s.latch = .ok (.bind df a c) ∧ t.sessAddr = a ∧ t.bound = true ∧ t.errCode = .ok

/-- R28: only `BIND`, `SET_FIELD` (one field, not `OS`) and `REQ_CHAN` (`MUX` and `OS`) write the mirror. -/
def Obligations.OnlyThreeCommandsWriteTheMirror : Prop :=
  ∀ s t, step s = .next t → s.agenda.head? ≠ some .reset → t.cfgMirror ≠ s.cfgMirror →
    ControllersTurn s ∧ s.phase = .decode ∧
      ((∃ df a c, decode s.latch = .ok (.bind df a c)) ∨
       (∃ f v, decode s.latch = .ok (.setField f v) ∧
          ∃ r ∈ fieldTable, r.1 ≠ 0 ∧ r.1 = f.toNat ∧ t.cfgMirror &&& ~~~r.2.2.2 = s.cfgMirror &&& ~~~r.2.2.2) ∨
       (∃ sel, decode s.latch = .ok (.reqChan sel) ∧ t.cfgMirror &&& 0x0FFF#16 = s.cfgMirror &&& 0x0FFF#16))

/-- R19: `RESULT` is written exactly when a result-producing command completes with `ERRCODE = 0`, and then holds that
command's result; while it holds no value a host read of it faults. -/
def Obligations.ResultIsWrittenOnSuccessOnly : Prop :=
  (∀ s t, s.Inv → step s = .next t → s.agenda.head? ≠ some .reset →
      ((s.busy = true ∧ t.busy = false ∧ t.errCode = .ok ∧ ∃ i, decode s.latch = .ok i ∧ i.producesResult = true) →
        t.resultHeld = true ∧ ∃ i, decode s.latch = .ok i ∧ resultOf s.scratch i = some t.result) ∧
      (¬ (s.busy = true ∧ t.busy = false ∧ t.errCode = .ok ∧ ∃ i, decode s.latch = .ok i ∧ i.producesResult = true) →
        t.result = s.result ∧ t.resultHeld = s.resultHeld)) ∧
  (∀ s rest, s.resultHeld = false → s.agenda = .hostRead 32 0x08 :: rest → step s = .fault .unwrittenRead)

/-- R61: the bits of a running command are fixed: until it ends or is reset, no step changes `LATCH`, nor its sampled
`TIMEOUT`. -/
def Obligations.RunningCommandIsFixed : Prop :=
  ∀ s t, s.busy = true → step s = .next t → s.agenda.head? ≠ some .reset →
    t.latch = s.latch ∧ t.latchTimeout = s.latchTimeout ∧ t.timeout = s.timeout

/-- R37, R58: the bus log only grows, at its end, by at most one event a step, but for a reset; and only a controller
step in `PHASE = BUS` makes it grow. -/
def Obligations.BusLogGrowsOnlyInBusSteps : Prop :=
  ∀ s t, step s = .next t → s.agenda.head? ≠ some .reset →
    (t.busLog = s.busLog ∨ ∃ e, t.busLog = s.busLog ++ [e]) ∧ (t.busLog ≠ s.busLog → ControllersTurn s ∧ s.txn ≠ none)

/-- R18: `BUSY` rises only by a `CMD` write and falls only by a controller step that completes the command, or a
reset; `ERRCODE` changes only there. -/
def Obligations.BusyAndErrcodeChangeTogether : Prop :=
  ∀ s t, s.Inv → step s = .next t → s.agenda.head? ≠ some .reset →
    (s.busy = false → t.busy = true → ∃ rest w, s.agenda = .hostWrite 32 0x00 w :: rest ∧ t.errCode = .ok) ∧
    (s.busy = true → t.busy = false →
      ControllersTurn s ∧ t.phase = .idle ∧ t.txn = none) ∧
    (t.busy = s.busy → t.errCode = s.errCode)

/-- R148: while a command runs, the host reads `ERRCODE` as 0 and `RESULT` as the previous result. That what is read is
appended to `hostLog` is the model's log 2. -/
def Obligations.EarlyReadsSeeTheOldResult : Prop :=
  ∀ s, s.Inv → s.busy = true →
    (∀ rest, s.agenda = .hostRead 32 0x04 :: rest →
      step s = .next { s with agenda := rest, hostLog := s.hostLog ++ [BitVec.ofNat 32 (s.bound.toNat * 2 + 1)] }) ∧
    (∀ t, step s = .next t → s.agenda.head? ≠ some .reset → t.busy = true →
      t.result = s.result ∧ t.resultHeld = s.resultHeld)

/-- R125: a bus error is raised only by a bus step of the controller, inside the transaction of a command that makes one. -/
def Obligations.BusErrorsComeFromBusSteps : Prop :=
  ∀ s t, s.Inv → step s = .next t → s.agenda.head? ≠ some .reset → t.errCode ≠ s.errCode →
    t.errCode ∈ [Code.addrNack, .dataNack, .arbLost, .timeout] →
    ControllersTurn s ∧ ∃ x, s.phase = .bus x ∧ x.cmd.transaction ≠ none ∧ decode s.latch = .ok x.cmd

/-- No step changes the parameters (R6), and the outside agents' data only move forward. All but the first clause is about
the model's own fields and its choice: `agenda` (log 1), `hostLog` (log 2), `script` and `asked` (log 5), `staleIdx`
(log 6); that the reset event leaves them is log 11. -/
def Obligations.OutsideDataOnlyMovesForward : Prop :=
  ∀ s t, step s = .next t →
    t.config = s.config ∧ s.asked ≤ t.asked ∧ s.staleIdx ≤ t.staleIdx ∧ s.hostLog <+: t.hostLog ∧
      t.script <:+ s.script ∧ t.agenda <:+ s.agenda
end

