-- ==== Sys2Proof/Laws/Codec.lean ====
section
/-! SUPPORT. The small laws of the codec's functions: byte order, fields of the configuration word, addresses. -/

namespace Sys2Proof

/-! ### Byte order (20_memory.md R49) -/

@[simp] theorem join16_hi_lo (v : Half) : join16 (hiByte v) (loByte v) = v := by
  unfold join16 hiByte loByte
  rw [BitVec.extractLsb'_append_extractLsb'_eq_extractLsb' (by decide)]
  simp

@[simp] theorem hiByte_join16 (b0 b1 : Byte) : hiByte (join16 b0 b1) = b0 := by
  unfold hiByte join16
  rw [BitVec.extractLsb'_append_eq_of_le (by decide)]
  simp

@[simp] theorem loByte_join16 (b0 b1 : Byte) : loByte (join16 b0 b1) = b1 := by
  unfold loByte join16
  rw [BitVec.extractLsb'_append_eq_of_add_le (by decide)]
  simp

theorem join16_toNat (b0 b1 : Byte) : (join16 b0 b1).toNat = b0.toNat * 256 + b1.toNat := by
  have h : b1.toNat < 2 ^ 8 := b1.isLt
  simp only [join16, BitVec.toNat_append]
  rw [← Nat.shiftLeft_add_eq_or_of_lt h, Nat.shiftLeft_eq]

theorem addrByteW_toNat (a : BusAddr) : (addrByteW a).toNat = 2 * a.toNat := by
  have h : (0#1).toNat < 2 ^ 1 := by decide
  simp only [addrByteW, BitVec.toNat_append]
  rw [← Nat.shiftLeft_add_eq_or_of_lt h, Nat.shiftLeft_eq]
  simp
  omega

theorem addrByteR_toNat (a : BusAddr) : (addrByteR a).toNat = 2 * a.toNat + 1 := by
  have h : (1#1).toNat < 2 ^ 1 := by decide
  simp only [addrByteR, BitVec.toNat_append]
  rw [← Nat.shiftLeft_add_eq_or_of_lt h, Nat.shiftLeft_eq]
  simp
  omega

/-! ### Fields (41_codec.md R100) -/

theorem Field.fits_iff (f : Field) (v : Byte) : f.fits v = true ↔ v.toNat < 2 ^ f.width := by
  simp [Field.fits]

/-- A value that fits lies wholly under its field's mask. -/
theorem Field.placed_and_mask {f : Field} {v : Byte} (h : f.fits v = true) :
    (v.setWidth 16 <<< f.shift) &&& f.mask = v.setWidth 16 <<< f.shift := by
  revert v
  cases f <;> decide

/-- A value that fits is read back from its place. -/
theorem Field.placed_read_back {f : Field} {v : Byte} (h : f.fits v = true) :
    ((v.setWidth 16 <<< f.shift) &&& f.mask) >>> f.shift = v.setWidth 16 := by
  revert v
  cases f <;> decide

/-- The masks of two different fields do not overlap (10_state.md R29). -/
theorem Field.mask_disjoint {f g : Field} (h : f ≠ g) : f.mask &&& g.mask = 0#16 := by
  cases f <;> cases g <;> first | exact absurd rfl h | decide

/-- A bit of `encode_config`'s word: the value's where the mask is, the base's elsewhere. -/
theorem encodeConfig_bit (w : Half) (f : Field) (v : Byte) (i : Nat) :
    (encodeConfig w f v).getLsbD i =
      if f.mask.getLsbD i then (v.setWidth 16 <<< f.shift).getLsbD i else w.getLsbD i := by
  by_cases hi : i < 16
  · cases hm : f.mask.getLsbD i <;>
      simp only [encodeConfig, BitVec.getLsbD_or, BitVec.getLsbD_and, BitVec.getLsbD_not, hm, hi] <;> simp
  · have h1 : 16 ≤ i := by omega
    simp [BitVec.getLsbD_of_ge _ _ h1]

theorem encodeConfig_and_not_mask (w : Half) (f : Field) (v : Byte) :
    encodeConfig w f v &&& ~~~f.mask = w &&& ~~~f.mask := by
  apply BitVec.eq_of_getLsbD_eq
  intro i hi
  cases hm : f.mask.getLsbD i <;> simp [encodeConfig_bit, hm]

theorem encodeConfig_and_mask (w : Half) (f : Field) (v : Byte) :
    encodeConfig w f v &&& f.mask = (v.setWidth 16 <<< f.shift) &&& f.mask := by
  apply BitVec.eq_of_getLsbD_eq
  intro i hi
  cases hm : f.mask.getLsbD i <;> simp [encodeConfig_bit, hm]

/-- For a value that fits, the second `& mask_f` of R100 changes nothing. -/
theorem encodeConfig_of_fits {f : Field} {v : Byte} (w : Half) (h : f.fits v = true) :
    encodeConfig w f v = (w &&& ~~~f.mask) ||| (v.setWidth 16 <<< f.shift) := by
  unfold encodeConfig
  rw [Field.placed_and_mask h]

/-! ### Conversion and status (R103 to R107) -/

theorem conversionWord_eq_ofInt (b0 b1 : Byte) : conversionWord b0 b1 = BitVec.ofInt 32 (join16 b0 b1).toInt := rfl

theorem decodeStatus_iff (b0 b1 : Byte) : decodeStatus b0 b1 = true ↔ b0.toNat < 128 := by
  unfold decodeStatus
  revert b0
  decide

theorem statusResult_eq (b0 b1 : Byte) : statusResult b0 b1 = if b0.toNat < 128 then 1#32 else 0#32 := by
  unfold statusResult
  by_cases h : b0.toNat < 128
  · rw [if_pos h, if_pos ((decodeStatus_iff b0 b1).2 h)]
  · rw [if_neg h, if_neg (mt (decodeStatus_iff b0 b1).1 h)]

end Sys2Proof
end

