-- ==== Sys2Proof/Laws/State.lean ====
section
/-! SUPPORT. What each named update of the state leaves in each field: one lemma per field per update, true by
unfolding, so that no proof unfolds a record update. The composed updates come after, as equations. -/

namespace Sys2Proof.Machine

variable (s : State)

section emit

variable (e : BusEvent)

@[simp] theorem State.emit_config : (s.emit e).config = s.config := rfl
@[simp] theorem State.emit_busy : (s.emit e).busy = s.busy := rfl
@[simp] theorem State.emit_bound : (s.emit e).bound = s.bound := rfl
@[simp] theorem State.emit_errCode : (s.emit e).errCode = s.errCode := rfl
@[simp] theorem State.emit_result : (s.emit e).result = s.result := rfl
@[simp] theorem State.emit_resultHeld : (s.emit e).resultHeld = s.resultHeld := rfl
@[simp] theorem State.emit_sessAddr : (s.emit e).sessAddr = s.sessAddr := rfl
@[simp] theorem State.emit_cfgMirror : (s.emit e).cfgMirror = s.cfgMirror := rfl
@[simp] theorem State.emit_timeout : (s.emit e).timeout = s.timeout := rfl
@[simp] theorem State.emit_phase : (s.emit e).phase = s.phase := rfl
@[simp] theorem State.emit_latch : (s.emit e).latch = s.latch := rfl
@[simp] theorem State.emit_latchTimeout : (s.emit e).latchTimeout = s.latchTimeout := rfl
@[simp] theorem State.emit_fail : (s.emit e).fail = s.fail := rfl
@[simp] theorem State.emit_scratch : (s.emit e).scratch = s.scratch := rfl
@[simp] theorem State.emit_busLog : (s.emit e).busLog = s.busLog ++ [e] := rfl
@[simp] theorem State.emit_agenda : (s.emit e).agenda = s.agenda := rfl
@[simp] theorem State.emit_hostLog : (s.emit e).hostLog = s.hostLog := rfl
@[simp] theorem State.emit_script : (s.emit e).script = s.script := rfl
@[simp] theorem State.emit_asked : (s.emit e).asked = s.asked := rfl
@[simp] theorem State.emit_staleIdx : (s.emit e).staleIdx = s.staleIdx := rfl

end emit

section setResult

variable (v : Word)

@[simp] theorem State.setResult_config : (s.setResult v).config = s.config := rfl
@[simp] theorem State.setResult_busy : (s.setResult v).busy = s.busy := rfl
@[simp] theorem State.setResult_bound : (s.setResult v).bound = s.bound := rfl
@[simp] theorem State.setResult_errCode : (s.setResult v).errCode = s.errCode := rfl
@[simp] theorem State.setResult_result : (s.setResult v).result = v := rfl
@[simp] theorem State.setResult_resultHeld : (s.setResult v).resultHeld = true := rfl
@[simp] theorem State.setResult_sessAddr : (s.setResult v).sessAddr = s.sessAddr := rfl
@[simp] theorem State.setResult_cfgMirror : (s.setResult v).cfgMirror = s.cfgMirror := rfl
@[simp] theorem State.setResult_timeout : (s.setResult v).timeout = s.timeout := rfl
@[simp] theorem State.setResult_phase : (s.setResult v).phase = s.phase := rfl
@[simp] theorem State.setResult_latch : (s.setResult v).latch = s.latch := rfl
@[simp] theorem State.setResult_latchTimeout : (s.setResult v).latchTimeout = s.latchTimeout := rfl
@[simp] theorem State.setResult_fail : (s.setResult v).fail = s.fail := rfl
@[simp] theorem State.setResult_scratch : (s.setResult v).scratch = s.scratch := rfl
@[simp] theorem State.setResult_busLog : (s.setResult v).busLog = s.busLog := rfl
@[simp] theorem State.setResult_agenda : (s.setResult v).agenda = s.agenda := rfl
@[simp] theorem State.setResult_hostLog : (s.setResult v).hostLog = s.hostLog := rfl
@[simp] theorem State.setResult_script : (s.setResult v).script = s.script := rfl
@[simp] theorem State.setResult_asked : (s.setResult v).asked = s.asked := rfl
@[simp] theorem State.setResult_staleIdx : (s.setResult v).staleIdx = s.staleIdx := rfl

end setResult

section setMirror

variable (v : Half)

@[simp] theorem State.setMirror_config : (s.setMirror v).config = s.config := rfl
@[simp] theorem State.setMirror_busy : (s.setMirror v).busy = s.busy := rfl
@[simp] theorem State.setMirror_bound : (s.setMirror v).bound = s.bound := rfl
@[simp] theorem State.setMirror_errCode : (s.setMirror v).errCode = s.errCode := rfl
@[simp] theorem State.setMirror_result : (s.setMirror v).result = s.result := rfl
@[simp] theorem State.setMirror_resultHeld : (s.setMirror v).resultHeld = s.resultHeld := rfl
@[simp] theorem State.setMirror_sessAddr : (s.setMirror v).sessAddr = s.sessAddr := rfl
@[simp] theorem State.setMirror_cfgMirror : (s.setMirror v).cfgMirror = v := rfl
@[simp] theorem State.setMirror_timeout : (s.setMirror v).timeout = s.timeout := rfl
@[simp] theorem State.setMirror_phase : (s.setMirror v).phase = s.phase := rfl
@[simp] theorem State.setMirror_latch : (s.setMirror v).latch = s.latch := rfl
@[simp] theorem State.setMirror_latchTimeout : (s.setMirror v).latchTimeout = s.latchTimeout := rfl
@[simp] theorem State.setMirror_fail : (s.setMirror v).fail = s.fail := rfl
@[simp] theorem State.setMirror_scratch : (s.setMirror v).scratch = s.scratch := rfl
@[simp] theorem State.setMirror_busLog : (s.setMirror v).busLog = s.busLog := rfl
@[simp] theorem State.setMirror_agenda : (s.setMirror v).agenda = s.agenda := rfl
@[simp] theorem State.setMirror_hostLog : (s.setMirror v).hostLog = s.hostLog := rfl
@[simp] theorem State.setMirror_script : (s.setMirror v).script = s.script := rfl
@[simp] theorem State.setMirror_asked : (s.setMirror v).asked = s.asked := rfl
@[simp] theorem State.setMirror_staleIdx : (s.setMirror v).staleIdx = s.staleIdx := rfl

end setMirror

section bindSession

variable (a : BusAddr) (c : Half)

@[simp] theorem State.bindSession_config : (s.bindSession a c).config = s.config := rfl
@[simp] theorem State.bindSession_busy : (s.bindSession a c).busy = s.busy := rfl
@[simp] theorem State.bindSession_bound : (s.bindSession a c).bound = true := rfl
@[simp] theorem State.bindSession_errCode : (s.bindSession a c).errCode = s.errCode := rfl
@[simp] theorem State.bindSession_result : (s.bindSession a c).result = s.result := rfl
@[simp] theorem State.bindSession_resultHeld : (s.bindSession a c).resultHeld = s.resultHeld := rfl
@[simp] theorem State.bindSession_sessAddr : (s.bindSession a c).sessAddr = a := rfl
@[simp] theorem State.bindSession_cfgMirror : (s.bindSession a c).cfgMirror = c := rfl
@[simp] theorem State.bindSession_timeout : (s.bindSession a c).timeout = s.timeout := rfl
@[simp] theorem State.bindSession_phase : (s.bindSession a c).phase = s.phase := rfl
@[simp] theorem State.bindSession_latch : (s.bindSession a c).latch = s.latch := rfl
@[simp] theorem State.bindSession_latchTimeout : (s.bindSession a c).latchTimeout = s.latchTimeout := rfl
@[simp] theorem State.bindSession_fail : (s.bindSession a c).fail = s.fail := rfl
@[simp] theorem State.bindSession_scratch : (s.bindSession a c).scratch = s.scratch := rfl
@[simp] theorem State.bindSession_busLog : (s.bindSession a c).busLog = s.busLog := rfl
@[simp] theorem State.bindSession_agenda : (s.bindSession a c).agenda = s.agenda := rfl
@[simp] theorem State.bindSession_hostLog : (s.bindSession a c).hostLog = s.hostLog := rfl
@[simp] theorem State.bindSession_script : (s.bindSession a c).script = s.script := rfl
@[simp] theorem State.bindSession_asked : (s.bindSession a c).asked = s.asked := rfl
@[simp] theorem State.bindSession_staleIdx : (s.bindSession a c).staleIdx = s.staleIdx := rfl

end bindSession

section complete

variable (c : Code)

@[simp] theorem State.complete_config : (s.complete c).config = s.config := rfl
@[simp] theorem State.complete_busy : (s.complete c).busy = false := rfl
@[simp] theorem State.complete_bound : (s.complete c).bound = s.bound := rfl
@[simp] theorem State.complete_errCode : (s.complete c).errCode = c := rfl
@[simp] theorem State.complete_result : (s.complete c).result = s.result := rfl
@[simp] theorem State.complete_resultHeld : (s.complete c).resultHeld = s.resultHeld := rfl
@[simp] theorem State.complete_sessAddr : (s.complete c).sessAddr = s.sessAddr := rfl
@[simp] theorem State.complete_cfgMirror : (s.complete c).cfgMirror = s.cfgMirror := rfl
@[simp] theorem State.complete_timeout : (s.complete c).timeout = s.timeout := rfl
@[simp] theorem State.complete_phase : (s.complete c).phase = .idle := rfl
@[simp] theorem State.complete_latch : (s.complete c).latch = s.latch := rfl
@[simp] theorem State.complete_latchTimeout : (s.complete c).latchTimeout = s.latchTimeout := rfl
@[simp] theorem State.complete_fail : (s.complete c).fail = none := rfl
@[simp] theorem State.complete_scratch : (s.complete c).scratch = s.scratch := rfl
@[simp] theorem State.complete_busLog : (s.complete c).busLog = s.busLog := rfl
@[simp] theorem State.complete_agenda : (s.complete c).agenda = s.agenda := rfl
@[simp] theorem State.complete_hostLog : (s.complete c).hostLog = s.hostLog := rfl
@[simp] theorem State.complete_script : (s.complete c).script = s.script := rfl
@[simp] theorem State.complete_asked : (s.complete c).asked = s.asked := rfl
@[simp] theorem State.complete_staleIdx : (s.complete c).staleIdx = s.staleIdx := rfl

end complete

section issue

variable (w : Word)

@[simp] theorem State.issue_config : (s.issue w).config = s.config := rfl
@[simp] theorem State.issue_busy : (s.issue w).busy = true := rfl
@[simp] theorem State.issue_bound : (s.issue w).bound = s.bound := rfl
@[simp] theorem State.issue_errCode : (s.issue w).errCode = .ok := rfl
@[simp] theorem State.issue_result : (s.issue w).result = s.result := rfl
@[simp] theorem State.issue_resultHeld : (s.issue w).resultHeld = s.resultHeld := rfl
@[simp] theorem State.issue_sessAddr : (s.issue w).sessAddr = s.sessAddr := rfl
@[simp] theorem State.issue_cfgMirror : (s.issue w).cfgMirror = s.cfgMirror := rfl
@[simp] theorem State.issue_timeout : (s.issue w).timeout = s.timeout := rfl
@[simp] theorem State.issue_phase : (s.issue w).phase = .decode := rfl
@[simp] theorem State.issue_latch : (s.issue w).latch = w := rfl
@[simp] theorem State.issue_latchTimeout : (s.issue w).latchTimeout = s.timeout := rfl
@[simp] theorem State.issue_fail : (s.issue w).fail = s.fail := rfl
@[simp] theorem State.issue_scratch : (s.issue w).scratch = s.scratch := rfl
@[simp] theorem State.issue_busLog : (s.issue w).busLog = s.busLog := rfl
@[simp] theorem State.issue_agenda : (s.issue w).agenda = s.agenda := rfl
@[simp] theorem State.issue_hostLog : (s.issue w).hostLog = s.hostLog := rfl
@[simp] theorem State.issue_script : (s.issue w).script = s.script := rfl
@[simp] theorem State.issue_asked : (s.issue w).asked = s.asked := rfl
@[simp] theorem State.issue_staleIdx : (s.issue w).staleIdx = s.staleIdx := rfl

end issue

section advanceOracle

@[simp] theorem State.advanceOracle_config : s.advanceOracle.config = s.config := rfl
@[simp] theorem State.advanceOracle_busy : s.advanceOracle.busy = s.busy := rfl
@[simp] theorem State.advanceOracle_bound : s.advanceOracle.bound = s.bound := rfl
@[simp] theorem State.advanceOracle_errCode : s.advanceOracle.errCode = s.errCode := rfl
@[simp] theorem State.advanceOracle_result : s.advanceOracle.result = s.result := rfl
@[simp] theorem State.advanceOracle_resultHeld : s.advanceOracle.resultHeld = s.resultHeld := rfl
@[simp] theorem State.advanceOracle_sessAddr : s.advanceOracle.sessAddr = s.sessAddr := rfl
@[simp] theorem State.advanceOracle_cfgMirror : s.advanceOracle.cfgMirror = s.cfgMirror := rfl
@[simp] theorem State.advanceOracle_timeout : s.advanceOracle.timeout = s.timeout := rfl
@[simp] theorem State.advanceOracle_phase : s.advanceOracle.phase = s.phase := rfl
@[simp] theorem State.advanceOracle_latch : s.advanceOracle.latch = s.latch := rfl
@[simp] theorem State.advanceOracle_latchTimeout : s.advanceOracle.latchTimeout = s.latchTimeout := rfl
@[simp] theorem State.advanceOracle_fail : s.advanceOracle.fail = s.fail := rfl
@[simp] theorem State.advanceOracle_scratch : s.advanceOracle.scratch = s.scratch := rfl
@[simp] theorem State.advanceOracle_busLog : s.advanceOracle.busLog = s.busLog := rfl
@[simp] theorem State.advanceOracle_agenda : s.advanceOracle.agenda = s.agenda := rfl
@[simp] theorem State.advanceOracle_hostLog : s.advanceOracle.hostLog = s.hostLog := rfl
@[simp] theorem State.advanceOracle_script : s.advanceOracle.script = s.script.tail := rfl
@[simp] theorem State.advanceOracle_asked : s.advanceOracle.asked = s.asked + 1 := rfl
@[simp] theorem State.advanceOracle_staleIdx : s.advanceOracle.staleIdx = s.staleIdx := rfl

end advanceOracle

section setScratch

variable (sc : Scratch)

@[simp] theorem State.setScratch_config : (s.setScratch sc).config = s.config := rfl
@[simp] theorem State.setScratch_busy : (s.setScratch sc).busy = s.busy := rfl
@[simp] theorem State.setScratch_bound : (s.setScratch sc).bound = s.bound := rfl
@[simp] theorem State.setScratch_errCode : (s.setScratch sc).errCode = s.errCode := rfl
@[simp] theorem State.setScratch_result : (s.setScratch sc).result = s.result := rfl
@[simp] theorem State.setScratch_resultHeld : (s.setScratch sc).resultHeld = s.resultHeld := rfl
@[simp] theorem State.setScratch_sessAddr : (s.setScratch sc).sessAddr = s.sessAddr := rfl
@[simp] theorem State.setScratch_cfgMirror : (s.setScratch sc).cfgMirror = s.cfgMirror := rfl
@[simp] theorem State.setScratch_timeout : (s.setScratch sc).timeout = s.timeout := rfl
@[simp] theorem State.setScratch_phase : (s.setScratch sc).phase = s.phase := rfl
@[simp] theorem State.setScratch_latch : (s.setScratch sc).latch = s.latch := rfl
@[simp] theorem State.setScratch_latchTimeout : (s.setScratch sc).latchTimeout = s.latchTimeout := rfl
@[simp] theorem State.setScratch_fail : (s.setScratch sc).fail = s.fail := rfl
@[simp] theorem State.setScratch_scratch : (s.setScratch sc).scratch = sc := rfl
@[simp] theorem State.setScratch_busLog : (s.setScratch sc).busLog = s.busLog := rfl
@[simp] theorem State.setScratch_agenda : (s.setScratch sc).agenda = s.agenda := rfl
@[simp] theorem State.setScratch_hostLog : (s.setScratch sc).hostLog = s.hostLog := rfl
@[simp] theorem State.setScratch_script : (s.setScratch sc).script = s.script := rfl
@[simp] theorem State.setScratch_asked : (s.setScratch sc).asked = s.asked := rfl
@[simp] theorem State.setScratch_staleIdx : (s.setScratch sc).staleIdx = s.staleIdx := rfl

end setScratch

section setTxn

variable (t : Txn)

@[simp] theorem State.setTxn_config : (s.setTxn t).config = s.config := rfl
@[simp] theorem State.setTxn_busy : (s.setTxn t).busy = s.busy := rfl
@[simp] theorem State.setTxn_bound : (s.setTxn t).bound = s.bound := rfl
@[simp] theorem State.setTxn_errCode : (s.setTxn t).errCode = s.errCode := rfl
@[simp] theorem State.setTxn_result : (s.setTxn t).result = s.result := rfl
@[simp] theorem State.setTxn_resultHeld : (s.setTxn t).resultHeld = s.resultHeld := rfl
@[simp] theorem State.setTxn_sessAddr : (s.setTxn t).sessAddr = s.sessAddr := rfl
@[simp] theorem State.setTxn_cfgMirror : (s.setTxn t).cfgMirror = s.cfgMirror := rfl
@[simp] theorem State.setTxn_timeout : (s.setTxn t).timeout = s.timeout := rfl
@[simp] theorem State.setTxn_phase : (s.setTxn t).phase = .bus t := rfl
@[simp] theorem State.setTxn_latch : (s.setTxn t).latch = s.latch := rfl
@[simp] theorem State.setTxn_latchTimeout : (s.setTxn t).latchTimeout = s.latchTimeout := rfl
@[simp] theorem State.setTxn_fail : (s.setTxn t).fail = s.fail := rfl
@[simp] theorem State.setTxn_scratch : (s.setTxn t).scratch = s.scratch := rfl
@[simp] theorem State.setTxn_busLog : (s.setTxn t).busLog = s.busLog := rfl
@[simp] theorem State.setTxn_agenda : (s.setTxn t).agenda = s.agenda := rfl
@[simp] theorem State.setTxn_hostLog : (s.setTxn t).hostLog = s.hostLog := rfl
@[simp] theorem State.setTxn_script : (s.setTxn t).script = s.script := rfl
@[simp] theorem State.setTxn_asked : (s.setTxn t).asked = s.asked := rfl
@[simp] theorem State.setTxn_staleIdx : (s.setTxn t).staleIdx = s.staleIdx := rfl

end setTxn

section setFail

variable (c : NackCause)

@[simp] theorem State.setFail_config : (s.setFail c).config = s.config := rfl
@[simp] theorem State.setFail_busy : (s.setFail c).busy = s.busy := rfl
@[simp] theorem State.setFail_bound : (s.setFail c).bound = s.bound := rfl
@[simp] theorem State.setFail_errCode : (s.setFail c).errCode = s.errCode := rfl
@[simp] theorem State.setFail_result : (s.setFail c).result = s.result := rfl
@[simp] theorem State.setFail_resultHeld : (s.setFail c).resultHeld = s.resultHeld := rfl
@[simp] theorem State.setFail_sessAddr : (s.setFail c).sessAddr = s.sessAddr := rfl
@[simp] theorem State.setFail_cfgMirror : (s.setFail c).cfgMirror = s.cfgMirror := rfl
@[simp] theorem State.setFail_timeout : (s.setFail c).timeout = s.timeout := rfl
@[simp] theorem State.setFail_phase : (s.setFail c).phase = s.phase := rfl
@[simp] theorem State.setFail_latch : (s.setFail c).latch = s.latch := rfl
@[simp] theorem State.setFail_latchTimeout : (s.setFail c).latchTimeout = s.latchTimeout := rfl
@[simp] theorem State.setFail_fail : (s.setFail c).fail = some c := rfl
@[simp] theorem State.setFail_scratch : (s.setFail c).scratch = s.scratch := rfl
@[simp] theorem State.setFail_busLog : (s.setFail c).busLog = s.busLog := rfl
@[simp] theorem State.setFail_agenda : (s.setFail c).agenda = s.agenda := rfl
@[simp] theorem State.setFail_hostLog : (s.setFail c).hostLog = s.hostLog := rfl
@[simp] theorem State.setFail_script : (s.setFail c).script = s.script := rfl
@[simp] theorem State.setFail_asked : (s.setFail c).asked = s.asked := rfl
@[simp] theorem State.setFail_staleIdx : (s.setFail c).staleIdx = s.staleIdx := rfl

end setFail

section dropScratch

@[simp] theorem State.dropScratch_config : s.dropScratch.config = s.config := rfl
@[simp] theorem State.dropScratch_busy : s.dropScratch.busy = s.busy := rfl
@[simp] theorem State.dropScratch_bound : s.dropScratch.bound = s.bound := rfl
@[simp] theorem State.dropScratch_errCode : s.dropScratch.errCode = s.errCode := rfl
@[simp] theorem State.dropScratch_result : s.dropScratch.result = s.result := rfl
@[simp] theorem State.dropScratch_resultHeld : s.dropScratch.resultHeld = s.resultHeld := rfl
@[simp] theorem State.dropScratch_sessAddr : s.dropScratch.sessAddr = s.sessAddr := rfl
@[simp] theorem State.dropScratch_cfgMirror : s.dropScratch.cfgMirror = s.cfgMirror := rfl
@[simp] theorem State.dropScratch_timeout : s.dropScratch.timeout = s.timeout := rfl
@[simp] theorem State.dropScratch_phase : s.dropScratch.phase = s.phase := rfl
@[simp] theorem State.dropScratch_latch : s.dropScratch.latch = s.latch := rfl
@[simp] theorem State.dropScratch_latchTimeout : s.dropScratch.latchTimeout = s.latchTimeout := rfl
@[simp] theorem State.dropScratch_fail : s.dropScratch.fail = s.fail := rfl
@[simp] theorem State.dropScratch_scratch : s.dropScratch.scratch = ⟨Config.staleByte s.staleIdx, Config.staleByte (s.staleIdx + 1)⟩ := rfl
@[simp] theorem State.dropScratch_busLog : s.dropScratch.busLog = s.busLog := rfl
@[simp] theorem State.dropScratch_agenda : s.dropScratch.agenda = s.agenda := rfl
@[simp] theorem State.dropScratch_hostLog : s.dropScratch.hostLog = s.hostLog := rfl
@[simp] theorem State.dropScratch_script : s.dropScratch.script = s.script := rfl
@[simp] theorem State.dropScratch_asked : s.dropScratch.asked = s.asked := rfl
@[simp] theorem State.dropScratch_staleIdx : s.dropScratch.staleIdx = s.staleIdx + 2 := rfl

end dropScratch

section hostSees

variable (v : Word)

@[simp] theorem State.hostSees_config : (s.hostSees v).config = s.config := rfl
@[simp] theorem State.hostSees_busy : (s.hostSees v).busy = s.busy := rfl
@[simp] theorem State.hostSees_bound : (s.hostSees v).bound = s.bound := rfl
@[simp] theorem State.hostSees_errCode : (s.hostSees v).errCode = s.errCode := rfl
@[simp] theorem State.hostSees_result : (s.hostSees v).result = s.result := rfl
@[simp] theorem State.hostSees_resultHeld : (s.hostSees v).resultHeld = s.resultHeld := rfl
@[simp] theorem State.hostSees_sessAddr : (s.hostSees v).sessAddr = s.sessAddr := rfl
@[simp] theorem State.hostSees_cfgMirror : (s.hostSees v).cfgMirror = s.cfgMirror := rfl
@[simp] theorem State.hostSees_timeout : (s.hostSees v).timeout = s.timeout := rfl
@[simp] theorem State.hostSees_phase : (s.hostSees v).phase = s.phase := rfl
@[simp] theorem State.hostSees_latch : (s.hostSees v).latch = s.latch := rfl
@[simp] theorem State.hostSees_latchTimeout : (s.hostSees v).latchTimeout = s.latchTimeout := rfl
@[simp] theorem State.hostSees_fail : (s.hostSees v).fail = s.fail := rfl
@[simp] theorem State.hostSees_scratch : (s.hostSees v).scratch = s.scratch := rfl
@[simp] theorem State.hostSees_busLog : (s.hostSees v).busLog = s.busLog := rfl
@[simp] theorem State.hostSees_agenda : (s.hostSees v).agenda = s.agenda := rfl
@[simp] theorem State.hostSees_hostLog : (s.hostSees v).hostLog = s.hostLog ++ [v] := rfl
@[simp] theorem State.hostSees_script : (s.hostSees v).script = s.script := rfl
@[simp] theorem State.hostSees_asked : (s.hostSees v).asked = s.asked := rfl
@[simp] theorem State.hostSees_staleIdx : (s.hostSees v).staleIdx = s.staleIdx := rfl

end hostSees

section resetEvent

@[simp] theorem State.resetEvent_config : s.resetEvent.config = s.config := rfl
@[simp] theorem State.resetEvent_busy : s.resetEvent.busy = false := rfl
@[simp] theorem State.resetEvent_bound : s.resetEvent.bound = false := rfl
@[simp] theorem State.resetEvent_errCode : s.resetEvent.errCode = .ok := rfl
@[simp] theorem State.resetEvent_result : s.resetEvent.result = 0#32 := rfl
@[simp] theorem State.resetEvent_resultHeld : s.resetEvent.resultHeld = false := rfl
@[simp] theorem State.resetEvent_sessAddr : s.resetEvent.sessAddr = 0#7 := rfl
@[simp] theorem State.resetEvent_cfgMirror : s.resetEvent.cfgMirror = 0#16 := rfl
@[simp] theorem State.resetEvent_timeout : s.resetEvent.timeout = s.config.timeoutReset := rfl
@[simp] theorem State.resetEvent_phase : s.resetEvent.phase = .idle := rfl
@[simp] theorem State.resetEvent_latch : s.resetEvent.latch = 0#32 := rfl
@[simp] theorem State.resetEvent_latchTimeout : s.resetEvent.latchTimeout = 0#32 := rfl
@[simp] theorem State.resetEvent_fail : s.resetEvent.fail = none := rfl
@[simp] theorem State.resetEvent_scratch : s.resetEvent.scratch = ⟨0#8, 0#8⟩ := rfl
@[simp] theorem State.resetEvent_busLog : s.resetEvent.busLog = [] := rfl
@[simp] theorem State.resetEvent_agenda : s.resetEvent.agenda = s.agenda := rfl
@[simp] theorem State.resetEvent_hostLog : s.resetEvent.hostLog = s.hostLog := rfl
@[simp] theorem State.resetEvent_script : s.resetEvent.script = s.script := rfl
@[simp] theorem State.resetEvent_asked : s.resetEvent.asked = s.asked := rfl
@[simp] theorem State.resetEvent_staleIdx : s.resetEvent.staleIdx = s.staleIdx := rfl

end resetEvent

theorem State.refuse_eq : s.refuse = s.complete .invalidArgument := rfl

theorem State.closeTxn_eq (c : Code) : s.closeTxn c = s.dropScratch.complete c := rfl

theorem State.abort_eq (c : AbortCause) : s.abort c = ((s.emit (.abort c)).dropScratch).complete c.code := rfl

@[simp] theorem State.setResultOpt_none : s.setResultOpt none = s := rfl

@[simp] theorem State.setResultOpt_some (v : Word) : s.setResultOpt (some v) = s.setResult v := rfl

theorem State.startRead_eq (cmd : Instr) (ptr : Byte) (n : Nat) :
    s.startRead cmd ptr n = s.setTxn ⟨.rd, ptr, n, cmd, readOps s.sessAddr ptr n⟩ := rfl

theorem State.startWrite_eq (cmd : Instr) (ptr : Byte) (n : Nat) (d : Half) :
    s.startWrite cmd ptr n d =
      (s.setScratch ⟨hiByte d, loByte d⟩).setTxn
        ⟨.wr, ptr, n, cmd, writeOps s.sessAddr ptr n ⟨hiByte d, loByte d⟩⟩ := rfl

@[simp] theorem State.txn_of_bus (t : Txn) (h : s.phase = .bus t) : s.txn = some t := by simp [State.txn, h]

@[simp] theorem State.txn_of_idle (h : s.phase = .idle) : s.txn = none := by simp [State.txn, h]

@[simp] theorem State.txn_of_decode (h : s.phase = .decode) : s.txn = none := by simp [State.txn, h]

theorem State.txn_ne_none : s.txn ≠ none ↔ ∃ t, s.phase = .bus t := by
  unfold State.txn
  cases s.phase <;> simp

end Sys2Proof.Machine
end

