-- ==== Sys2Proof/Laws/Exec.lean ====
section
/-! SUPPORT. What a `DECODE` step can do: one lemma per meaning, then one for `exec`. A meaning refuses, or has the
effect `Effect` says, with the checks it passed. -/

namespace Sys2Proof.Machine

/-- What a command does in its `DECODE` step when it is not refused, with what its checks established. -/
def Effect (i : Instr) (s t : State) : Prop :=
  match i with
  | .busWrite reg n d =>
    s.bound = true ∧ reg.toNat ≤ 3 ∧ n ≠ 3#2 ∧ t = s.startWrite (.busWrite reg n d) reg n.toNat d
  | .busRead reg n =>
    s.bound = true ∧ reg.toNat ≤ 3 ∧ (n ≠ 0#2 ∧ n ≠ 3#2) ∧ t = s.startRead (.busRead reg n) reg n.toNat
  | .encConfig f v base =>
    ∃ fld, Field.ofId f = some fld ∧ fld.fits v = true ∧
      t = (s.setResult ((encodeConfig base fld v).setWidth 32)).complete .ok
  | .decConv b => t = (s.setResult (conversionWord (hiByte b) (loByte b))).complete .ok
  | .decStatus b => t = (s.setResult (statusResult (hiByte b) (loByte b))).complete .ok
  | .encThresh v => t = (s.setResult (v.setWidth 32)).complete .ok
  | .bind df a c =>
    s.bound = false ∧ ¬ (df = true ∧ c ≠ 0#16) ∧
      t = (s.bindSession a (if df then s.config.configDefault else c)).complete .ok
  | .setField f v =>
    s.bound = true ∧ ∃ fld, Field.ofId f = some fld ∧ fld ≠ .os ∧ fld.fits v = true ∧
      t = (s.setMirror (encodeConfig s.cfgMirror fld v)).complete .ok
  | .reqChan sel =>
    s.bound = true ∧ sel.toNat ≤ 7 ∧
      t = (s.setMirror (reqChanWord s.cfgMirror sel)).startWrite (.reqChan sel) 0x01#8 2 (reqChanWord s.cfgMirror sel)
  | .isReady => s.bound = true ∧ t = s.startRead .isReady 0x01#8 2
  | .readConv => s.bound = true ∧ t = s.startRead .readConv 0x00#8 2
  | .setThresh which v =>
    s.bound = true ∧ (which = 0x02#8 ∨ which = 0x03#8) ∧ t = s.startWrite (.setThresh which v) which 2 v

theorem ptrInRange_iff (reg : Byte) : ptrInRange reg = true ↔ reg.toNat ≤ 3 := decide_eq_true_iff

theorem writeCountOk_iff (n : BitVec 2) : writeCountOk n = true ↔ n ≠ 3#2 := by simp [writeCountOk]

theorem readCountOk_iff (n : BitVec 2) : readCountOk n = true ↔ n ≠ 0#2 ∧ n ≠ 3#2 := by simp [readCountOk]

theorem selectorOk_iff (sel : Byte) : selectorOk sel = true ↔ sel.toNat ≤ 7 := decide_eq_true_iff

theorem isThresholdReg_iff (w : Byte) : isThresholdReg w = true ↔ w = 0x02#8 ∨ w = 0x03#8 := by
  simp [isThresholdReg, TargetReg.pointer]

variable (s : State)

theorem execBusWrite_cases (reg : Byte) (n : BitVec 2) (d : Half) :
    execBusWrite reg n d s = .next s.refuse ∧ (s.bound = false ∨ 3 < reg.toNat ∨ n = 3#2) ∨
      ∃ t, execBusWrite reg n d s = .next t ∧ Effect (.busWrite reg n d) s t := by
  cases hb : s.bound with
  | false => exact .inl ⟨by simp [execBusWrite, hb], .inl rfl⟩
  | true =>
    by_cases hp : reg.toNat ≤ 3
    · have hp' := (ptrInRange_iff reg).2 hp
      by_cases hn : n = 3#2
      · exact .inl ⟨by simp [execBusWrite, hb, hp', hn, writeCountOk], .inr (.inr hn)⟩
      · exact .inr ⟨_, by simp [execBusWrite, hb, hp', (writeCountOk_iff n).2 hn], hb, hp, hn, rfl⟩
    · have hp' := mt (ptrInRange_iff reg).1 hp
      exact .inl ⟨by simp [execBusWrite, hb, hp'], .inr (.inl (by omega))⟩

theorem execBusRead_cases (reg : Byte) (n : BitVec 2) :
    execBusRead reg n s = .next s.refuse ∧ (s.bound = false ∨ 3 < reg.toNat ∨ n = 0#2 ∨ n = 3#2) ∨
      ∃ t, execBusRead reg n s = .next t ∧ Effect (.busRead reg n) s t := by
  cases hb : s.bound with
  | false => exact .inl ⟨by simp [execBusRead, hb], .inl rfl⟩
  | true =>
    by_cases hp : reg.toNat ≤ 3
    · have hp' := (ptrInRange_iff reg).2 hp
      by_cases hn : n ≠ 0#2 ∧ n ≠ 3#2
      · exact .inr ⟨_, by simp [execBusRead, hb, hp', (readCountOk_iff n).2 hn], hb, hp, hn, rfl⟩
      · have hn' := mt (readCountOk_iff n).1 hn
        exact .inl ⟨by simp [execBusRead, hb, hp', hn'], .inr (.inr (by tauto))⟩
    · have hp' := mt (ptrInRange_iff reg).1 hp
      exact .inl ⟨by simp [execBusRead, hb, hp'], .inr (.inl (by omega))⟩

theorem execEncConfig_cases (f : BitVec 4) (v : Byte) (base : Half) :
    execEncConfig f v base s = .next s.refuse ∧
        (Field.ofId f = none ∨ ∃ fld, Field.ofId f = some fld ∧ fld.fits v = false) ∨
      ∃ t, execEncConfig f v base s = .next t ∧ Effect (.encConfig f v base) s t := by
  cases hf : Field.ofId f with
  | none => exact .inl ⟨by simp [execEncConfig, hf], .inl rfl⟩
  | some fld =>
    cases hv : fld.fits v with
    | false => exact .inl ⟨by simp [execEncConfig, hf, hv], .inr ⟨fld, rfl, hv⟩⟩
    | true => exact .inr ⟨_, by simp [execEncConfig, hf, hv], fld, hf, hv, rfl⟩

theorem execBind_cases (df : Bool) (a : BusAddr) (c : Half) :
    execBind df a c s = .next s.refuse ∧ (s.bound = true ∨ df = true ∧ c ≠ 0#16) ∨
      ∃ t, execBind df a c s = .next t ∧ Effect (.bind df a c) s t := by
  cases hb : s.bound with
  | true => exact .inl ⟨by simp [execBind, hb], .inl rfl⟩
  | false =>
    by_cases hc : df = true ∧ c ≠ 0#16
    · exact .inl ⟨by simp [execBind, hb, hc], .inr hc⟩
    · exact .inr ⟨_, by simp [execBind, hb, hc], hb, hc, rfl⟩

theorem execSetField_cases (f : BitVec 4) (v : Byte) :
    execSetField f v s = .next s.refuse ∧
        (s.bound = false ∨ Field.ofId f = none ∨
          ∃ fld, Field.ofId f = some fld ∧ (fld = .os ∨ fld.fits v = false)) ∨
      ∃ t, execSetField f v s = .next t ∧ Effect (.setField f v) s t := by
  cases hb : s.bound with
  | false => exact .inl ⟨by simp [execSetField, hb], .inl rfl⟩
  | true =>
    cases hf : Field.ofId f with
    | none => exact .inl ⟨by simp [execSetField, hb, hf], .inr (.inl rfl)⟩
    | some fld =>
      by_cases ho : fld = .os
      · exact .inl ⟨by simp [execSetField, hb, hf, ho], .inr (.inr ⟨fld, rfl, .inl ho⟩)⟩
      · cases hv : fld.fits v with
        | false => exact .inl ⟨by simp [execSetField, hb, hf, hv], .inr (.inr ⟨fld, rfl, .inr hv⟩)⟩
        | true => exact .inr ⟨_, by simp [execSetField, hb, hf, ho, hv], hb, fld, hf, ho, hv, rfl⟩

theorem execReqChan_cases (sel : Byte) :
    execReqChan sel s = .next s.refuse ∧ (s.bound = false ∨ 7 < sel.toNat) ∨
      ∃ t, execReqChan sel s = .next t ∧ Effect (.reqChan sel) s t := by
  cases hb : s.bound with
  | false => exact .inl ⟨by simp [execReqChan, hb], .inl rfl⟩
  | true =>
    by_cases hs : sel.toNat ≤ 7
    · exact .inr ⟨_, by simp [execReqChan, hb, (selectorOk_iff sel).2 hs]; rfl, hb, hs, rfl⟩
    · have hs' := mt (selectorOk_iff sel).1 hs
      exact .inl ⟨by simp [execReqChan, hb, hs'], .inr (by omega)⟩

theorem execIsReady_cases :
    execIsReady s = .next s.refuse ∧ s.bound = false ∨ ∃ t, execIsReady s = .next t ∧ Effect .isReady s t := by
  cases hb : s.bound with
  | false => exact .inl ⟨by simp [execIsReady, hb], rfl⟩
  | true => exact .inr ⟨_, by simp [execIsReady, hb]; rfl, hb, rfl⟩

theorem execReadConv_cases :
    execReadConv s = .next s.refuse ∧ s.bound = false ∨ ∃ t, execReadConv s = .next t ∧ Effect .readConv s t := by
  cases hb : s.bound with
  | false => exact .inl ⟨by simp [execReadConv, hb], rfl⟩
  | true => exact .inr ⟨_, by simp [execReadConv, hb]; rfl, hb, rfl⟩

theorem execSetThresh_cases (w : Byte) (v : Half) :
    execSetThresh w v s = .next s.refuse ∧ (s.bound = false ∨ ¬ (w = 0x02#8 ∨ w = 0x03#8)) ∨
      ∃ t, execSetThresh w v s = .next t ∧ Effect (.setThresh w v) s t := by
  cases hb : s.bound with
  | false => exact .inl ⟨by simp [execSetThresh, hb], .inl rfl⟩
  | true =>
    by_cases hw : w = 0x02#8 ∨ w = 0x03#8
    · exact .inr ⟨_, by simp [execSetThresh, hb, (isThresholdReg_iff w).2 hw], hb, hw, rfl⟩
    · have hw' := mt (isThresholdReg_iff w).1 hw
      exact .inl ⟨by simp [execSetThresh, hb, hw'], .inr hw⟩

/-- A `DECODE` step refuses the command or has its effect; it never stops. -/
theorem exec_cases (i : Instr) : exec i s = .next s.refuse ∨ ∃ t, exec i s = .next t ∧ Effect i s t := by
  cases i with
  | busWrite reg n d => exact (execBusWrite_cases s reg n d).imp_left And.left
  | busRead reg n => exact (execBusRead_cases s reg n).imp_left And.left
  | encConfig f v b => exact (execEncConfig_cases s f v b).imp_left And.left
  | decConv b => exact .inr ⟨_, rfl, rfl⟩
  | decStatus b => exact .inr ⟨_, rfl, rfl⟩
  | encThresh v => exact .inr ⟨_, by rw [exec, execEncThresh, join16_hi_lo], rfl⟩
  | bind df a c => exact (execBind_cases s df a c).imp_left And.left
  | setField f v => exact (execSetField_cases s f v).imp_left And.left
  | reqChan sel => exact (execReqChan_cases s sel).imp_left And.left
  | isReady => exact (execIsReady_cases s).imp_left And.left
  | readConv => exact (execReadConv_cases s).imp_left And.left
  | setThresh w v => exact (execSetThresh_cases s w v).imp_left And.left

/-- `exec_cases`, from the state a `DECODE` step ended in. -/
theorem exec_next {i : Instr} {s t : State} (h : exec i s = .next t) : t = s.refuse ∨ Effect i s t := by
  rcases exec_cases s i with hr | ⟨u, hu, he⟩
  · left; rw [hr] at h; injection h with h; exact h.symm
  · right; rw [hu] at h; injection h with h; exact h ▸ he

end Sys2Proof.Machine
end

