-- ==== Sys2Proof/Laws/Bus.lean ====
section
/-! SUPPORT. What a bus step can do, said once. -/

namespace Sys2Proof.Machine

theorem abortDriven_timeout {cfg : Config} {a : Answer} (h : a.abortDriven cfg = some .timeout) :
    cfg.timeoutAnyStep = true := by
  unfold Answer.abortDriven at h
  split at h
  · simp_all
  · split at h <;> simp at h

theorem abortDriven_arbLost {cfg : Config} {a : Answer} (h : a.abortDriven cfg = some .arbLost) :
    cfg.arbLoss = true := by
  unfold Answer.abortDriven at h
  split at h
  · simp at h
  · split at h
    · simp_all
    · simp at h

theorem abortUndriven_some {cfg : Config} {a : Answer} {c : AbortCause} (h : a.abortUndriven cfg = some c) :
    c = .timeout ∧ cfg.timeoutAnyStep = true := by
  unfold Answer.abortUndriven at h
  split at h
  · simp_all
  · simp at h

/-- A bus step that neither ends the transaction nor fails: what it emits, and what becomes of `FAIL` and `SCRATCH`. -/
inductive Goes (a : Answer) (sc : Scratch) : BusOp → BusEvent → Option NackCause → Scratch → Prop where
  | cond (k : CondKind) : Goes a sc (.cond k) k.event none sc
  | ack (b : Byte) (c : NackCause) (h : a.ack = true) : Goes a sc (.tx b c) (.tx b .ack) none sc
  | nack (b : Byte) (c : NackCause) (h : a.ack = false) : Goes a sc (.tx b c) (.tx b .nack) (some c) sc
  | rx (i : Nat) (last : Bool) :
      Goes a sc (.rx i last) (.rx a.byte (if last then .nack else .ack)) none (sc.put i a.byte)

/-- The failure the oracle may answer at a step (00_scope.md R12). -/
def failureAt (cfg : Config) (a : Answer) : List BusOp → Option AbortCause
  | .cond _ :: _ => a.abortDriven cfg
  | .tx _ _ :: _ => a.abortDriven cfg
  | .rx _ _ :: _ => a.abortUndriven cfg
  | [] => a.abortUndriven cfg

/-- Every bus step is the stop after a not-acknowledge, an abort, the final stop, or one step further. -/
theorem busStep_cases (t : Txn) (s : State) :
    (∃ c, s.fail = some c ∧ busStep t s = (s.emit .stop).closeTxn c.code) ∨
    (s.fail = none ∧ ∃ c, failureAt s.config s.nextAnswer t.todo = some c ∧ busStep t s = s.advanceOracle.abort c) ∨
    (s.fail = none ∧ failureAt s.config s.nextAnswer t.todo = none ∧ t.todo = [] ∧
      busStep t s = ((s.advanceOracle.emit .stop).setResultOpt (txnResult t.cmd s.scratch)).closeTxn .ok) ∨
    (s.fail = none ∧ ∃ op rest e fl sc, failureAt s.config s.nextAnswer t.todo = none ∧ t.todo = op :: rest ∧
      Goes s.nextAnswer s.scratch op e fl sc ∧
      busStep t s = { s with script := s.script.tail, asked := s.asked + 1, busLog := s.busLog ++ [e],
                             phase := .bus { t with todo := rest }, fail := fl, scratch := sc }) := by
  unfold busStep
  cases hf : s.fail with
  | some c => exact .inl ⟨c, rfl, rfl⟩
  | none =>
    right
    simp only [true_and]
    cases ht : t.todo with
    | nil =>
      simp only [askedStep, ht, stopStep, failureAt, State.advanceOracle_config, State.advanceOracle_scratch]
      cases ha : s.nextAnswer.abortUndriven s.config <;> simp
    | cons op rest =>
      cases op with
      | cond k =>
        simp only [askedStep, ht, condStep, failureAt, State.advanceOracle_config]
        cases ha : s.nextAnswer.abortDriven s.config with
        | some c => simp
        | none => exact .inr (.inr ⟨_, rest, _, _, _, rfl, rfl, .cond k, by
            simp only [State.advanceOracle, State.emit, State.setTxn, ← hf]⟩)
      | tx b c =>
        simp only [askedStep, ht, txStep, failureAt, State.advanceOracle_config]
        cases ha : s.nextAnswer.abortDriven s.config with
        | some c => simp
        | none =>
          cases hk : s.nextAnswer.ack with
          | true => exact .inr (.inr ⟨_, rest, _, _, _, rfl, rfl, .ack b c hk, by
              simp [State.advanceOracle, State.emit, State.setTxn, ← hf]⟩)
          | false => exact .inr (.inr ⟨_, rest, _, _, _, rfl, rfl, .nack b c hk, by
              simp [State.advanceOracle, State.emit, State.setTxn, State.setFail]⟩)
      | rx i last =>
        simp only [askedStep, ht, rxStep, failureAt, State.advanceOracle_config]
        cases ha : s.nextAnswer.abortUndriven s.config with
        | some c => simp
        | none => exact .inr (.inr ⟨_, rest, _, _, _, rfl, rfl, .rx i last, by
            simp only [State.advanceOracle, State.emit, State.setTxn, State.setScratch, ← hf]⟩)

end Sys2Proof.Machine
end

