-- ==== Sys2Proof/Laws/Decode.lean ====
section
/-! SUPPORT. The four layouts of a command word (30_encoding.md R65 to R67): the fields of a word put together from
its parts, and a word put together again from its fields. -/

namespace Sys2Proof

section Layouts

variable (o : BitVec 4) (w : Word)

/-- Format T: `OP`, two reserved bits, `N`, `R`, `D`. -/
theorem layoutT_fields (z n : BitVec 2) (r : Byte) (d : Half) :
    bitsAt (o ++ z ++ n ++ r ++ d) 28 4 = o ∧ bitsAt (o ++ z ++ n ++ r ++ d) 26 2 = z ∧
    bitsAt (o ++ z ++ n ++ r ++ d) 24 2 = n ∧ bitsAt (o ++ z ++ n ++ r ++ d) 16 8 = r ∧
    bitsAt (o ++ z ++ n ++ r ++ d) 0 16 = d := by
  unfold bitsAt
  refine ⟨?_, ?_, ?_, ?_, ?_⟩ <;>
  · repeat first
      | rw [BitVec.extractLsb'_append_eq_of_le (by decide)]
      | rw [BitVec.extractLsb'_append_eq_of_add_le (by decide)]
    simp

/-- Format K: `OP`, `F`, `V`, `B`. -/
theorem layoutK_fields (f : BitVec 4) (v : Byte) (b : Half) :
    bitsAt (o ++ f ++ v ++ b) 28 4 = o ∧ bitsAt (o ++ f ++ v ++ b) 24 4 = f ∧
    bitsAt (o ++ f ++ v ++ b) 16 8 = v ∧ bitsAt (o ++ f ++ v ++ b) 0 16 = b := by
  unfold bitsAt
  refine ⟨?_, ?_, ?_, ?_⟩ <;>
  · repeat first
      | rw [BitVec.extractLsb'_append_eq_of_le (by decide)]
      | rw [BitVec.extractLsb'_append_eq_of_add_le (by decide)]
    simp

/-- Format K with `F` and `V` reserved: `OP`, twelve reserved bits, `B`. -/
theorem layoutB_fields (z : BitVec 12) (b : Half) :
    bitsAt (o ++ z ++ b) 28 4 = o ∧ bitsAt (o ++ z ++ b) 16 12 = z ∧ bitsAt (o ++ z ++ b) 0 16 = b := by
  unfold bitsAt
  refine ⟨?_, ?_, ?_⟩ <;>
  · repeat first
      | rw [BitVec.extractLsb'_append_eq_of_le (by decide)]
      | rw [BitVec.extractLsb'_append_eq_of_add_le (by decide)]
    simp

/-- Format N: `OP`, `DF`, four reserved bits, `A`, `C`. -/
theorem layoutN_fields (df : BitVec 1) (z : BitVec 4) (a : BusAddr) (c : Half) :
    bitsAt (o ++ df ++ z ++ a ++ c) 28 4 = o ∧ bitsAt (o ++ df ++ z ++ a ++ c) 27 1 = df ∧
    bitsAt (o ++ df ++ z ++ a ++ c) 23 4 = z ∧ bitsAt (o ++ df ++ z ++ a ++ c) 16 7 = a ∧
    bitsAt (o ++ df ++ z ++ a ++ c) 0 16 = c := by
  unfold bitsAt
  refine ⟨?_, ?_, ?_, ?_, ?_⟩ <;>
  · repeat first
      | rw [BitVec.extractLsb'_append_eq_of_le (by decide)]
      | rw [BitVec.extractLsb'_append_eq_of_add_le (by decide)]
    simp

theorem layoutT_eta : bitsAt w 28 4 ++ bitsAt w 26 2 ++ bitsAt w 24 2 ++ bitsAt w 16 8 ++ bitsAt w 0 16 = w := by
  unfold bitsAt
  rw [BitVec.extractLsb'_append_extractLsb'_eq_extractLsb' (by decide),
    BitVec.extractLsb'_append_extractLsb'_eq_extractLsb' (by decide),
    BitVec.extractLsb'_append_extractLsb'_eq_extractLsb' (by decide),
    BitVec.extractLsb'_append_extractLsb'_eq_extractLsb' (by decide)]
  simp

theorem layoutK_eta : bitsAt w 28 4 ++ bitsAt w 24 4 ++ bitsAt w 16 8 ++ bitsAt w 0 16 = w := by
  unfold bitsAt
  rw [BitVec.extractLsb'_append_extractLsb'_eq_extractLsb' (by decide),
    BitVec.extractLsb'_append_extractLsb'_eq_extractLsb' (by decide),
    BitVec.extractLsb'_append_extractLsb'_eq_extractLsb' (by decide)]
  simp

theorem layoutB_eta : bitsAt w 28 4 ++ bitsAt w 16 12 ++ bitsAt w 0 16 = w := by
  unfold bitsAt
  rw [BitVec.extractLsb'_append_extractLsb'_eq_extractLsb' (by decide),
    BitVec.extractLsb'_append_extractLsb'_eq_extractLsb' (by decide)]
  simp

theorem layoutN_eta : bitsAt w 28 4 ++ bitsAt w 27 1 ++ bitsAt w 23 4 ++ bitsAt w 16 7 ++ bitsAt w 0 16 = w := by
  unfold bitsAt
  rw [BitVec.extractLsb'_append_extractLsb'_eq_extractLsb' (by decide),
    BitVec.extractLsb'_append_extractLsb'_eq_extractLsb' (by decide),
    BitVec.extractLsb'_append_extractLsb'_eq_extractLsb' (by decide),
    BitVec.extractLsb'_append_extractLsb'_eq_extractLsb' (by decide)]
  simp

theorem layoutZ_eta : bitsAt w 28 4 ++ bitsAt w 0 28 = w := by
  unfold bitsAt
  rw [BitVec.extractLsb'_append_extractLsb'_eq_extractLsb' (by decide)]
  simp

end Layouts

/-! ### Two words are equal when their fields are -/

theorem layoutT_ext {x y : Word} : x = y ↔ bitsAt x 28 4 = bitsAt y 28 4 ∧ bitsAt x 26 2 = bitsAt y 26 2 ∧
    bitsAt x 24 2 = bitsAt y 24 2 ∧ bitsAt x 16 8 = bitsAt y 16 8 ∧ bitsAt x 0 16 = bitsAt y 0 16 := by
  refine ⟨fun h => by simp [h], fun ⟨h1, h2, h3, h4, h5⟩ => ?_⟩
  rw [← layoutT_eta x, ← layoutT_eta y, h1, h2, h3, h4, h5]

theorem layoutK_ext {x y : Word} : x = y ↔ bitsAt x 28 4 = bitsAt y 28 4 ∧ bitsAt x 24 4 = bitsAt y 24 4 ∧
    bitsAt x 16 8 = bitsAt y 16 8 ∧ bitsAt x 0 16 = bitsAt y 0 16 := by
  refine ⟨fun h => by simp [h], fun ⟨h1, h2, h3, h4⟩ => ?_⟩
  rw [← layoutK_eta x, ← layoutK_eta y, h1, h2, h3, h4]

theorem layoutB_ext {x y : Word} : x = y ↔ bitsAt x 28 4 = bitsAt y 28 4 ∧ bitsAt x 16 12 = bitsAt y 16 12 ∧
    bitsAt x 0 16 = bitsAt y 0 16 := by
  refine ⟨fun h => by simp [h], fun ⟨h1, h2, h3⟩ => ?_⟩
  rw [← layoutB_eta x, ← layoutB_eta y, h1, h2, h3]

theorem layoutN_ext {x y : Word} : x = y ↔ bitsAt x 28 4 = bitsAt y 28 4 ∧ bitsAt x 27 1 = bitsAt y 27 1 ∧
    bitsAt x 23 4 = bitsAt y 23 4 ∧ bitsAt x 16 7 = bitsAt y 16 7 ∧ bitsAt x 0 16 = bitsAt y 0 16 := by
  refine ⟨fun h => by simp [h], fun ⟨h1, h2, h3, h4, h5⟩ => ?_⟩
  rw [← layoutN_eta x, ← layoutN_eta y, h1, h2, h3, h4, h5]

/-- The part of a masked word is the masked part. -/
theorem bitsAt_and (w m : Word) (lo len : Nat) : bitsAt (w &&& m) lo len = bitsAt w lo len &&& bitsAt m lo len := by
  simp [bitsAt, BitVec.extractLsb'_and]

theorem bitsAt_opcode_toNat (w : Word) : (bitsAt w 28 4).toNat = w.toNat / 2 ^ 28 := by
  have h := w.isLt
  simp [bitsAt, BitVec.extractLsb'_toNat, Nat.shiftRight_eq_div_pow]
  omega

end Sys2Proof
end

