-- ==== Sys2Proof/Laws/Step.lean ====
section
/-! SUPPORT. What a step can do, said once: a controller step, or a host access, or a reset. -/

namespace Sys2Proof.Machine

/-- The step of a state in which the controller steps next. -/
theorem step_of_controllerNext {s s0 : State} (h : ControllerNext s s0) : step s = controllerStep s0 := by
  rcases h with ⟨ha, rfl⟩ | ⟨rest, ha, rfl⟩ <;> simp [step, nextTurn, ha, runTurn]

theorem step_of_nil {s : State} (h : s.agenda = []) : step s = controllerStep s :=
  step_of_controllerNext (.inl ⟨h, rfl⟩)

theorem step_of_turn {s : State} {t : Turn} {rest : List Turn} (h : s.agenda = t :: rest) :
    step s = runTurn t { s with agenda := rest } := by
  simp [step, nextTurn, h]

theorem controllerStep_idle {s : State} (h : s.phase = .idle) : controllerStep s = .next s := by
  simp [controllerStep, h]

theorem controllerStep_decode {s : State} {i : Instr} (h : s.phase = .decode) (hd : decode s.latch = .ok i) :
    controllerStep s = exec i s := by
  simp [controllerStep, h, decodeStep, hd]

theorem controllerStep_rejected {s : State} {e : Reject} (h : s.phase = .decode) (hd : decode s.latch = .error e) :
    controllerStep s = .next s.refuse := by
  simp [controllerStep, h, decodeStep, hd]

theorem controllerStep_bus {s : State} {t : Txn} (h : s.phase = .bus t) : controllerStep s = .next (busStep t s) := by
  simp [controllerStep, h]

/-- Every controller step answers a next state: it stays idle, refuses the latched word, has its command's effect, or
takes a bus step. -/
theorem controllerStep_cases (s : State) :
    (s.phase = .idle ∧ controllerStep s = .next s) ∨
    (s.phase = .decode ∧ controllerStep s = .next s.refuse) ∨
    (s.phase = .decode ∧ ∃ i t, decode s.latch = .ok i ∧ Effect i s t ∧ controllerStep s = .next t) ∨
    (∃ t, s.phase = .bus t ∧ controllerStep s = .next (busStep t s)) := by
  cases hp : s.phase with
  | idle => simp [controllerStep_idle hp]
  | bus t => simp [controllerStep_bus hp]
  | decode =>
    cases hd : decode s.latch with
    | error e => simp [controllerStep_rejected hp hd]
    | ok i =>
      rw [controllerStep_decode hp hd]
      rcases exec_cases s i with hr | ⟨t, ht, he⟩
      · simp [hr]
      · exact .inr (.inr (.inl ⟨rfl, i, t, rfl, he, ht⟩))

/-- Every step that answers a next state is one of these. -/
theorem step_cases {s t : State} (h : step s = .next t) :
    (∃ s0, ControllerNext s s0 ∧ controllerStep s0 = .next t) ∨
    (∃ rest w off r v, s.agenda = .hostRead w off :: rest ∧ HostReg.accessed w off = some r ∧
      s.hostValue r = some v ∧ t = { s with agenda := rest, hostLog := s.hostLog ++ [v] }) ∨
    (∃ rest w off v, s.agenda = .hostWrite w off v :: rest ∧ HostReg.accessed w off = some .cmd ∧ s.busy = false ∧
      t = ({ s with agenda := rest } : State).issue v) ∨
    (∃ rest w off v, s.agenda = .hostWrite w off v :: rest ∧ HostReg.accessed w off = some .timeout ∧
      s.busy = false ∧ t = { s with agenda := rest, timeout := v }) ∨
    (∃ rest w off r v, s.agenda = .hostWrite w off v :: rest ∧ HostReg.accessed w off = some r ∧
      t = { s with agenda := rest }) ∨
    (∃ rest, s.agenda = .reset :: rest ∧ t = ({ s with agenda := rest } : State).resetEvent) := by
  cases ha : s.agenda with
  | nil => exact .inl ⟨s, .inl ⟨ha, rfl⟩, by rw [← step_of_nil ha, h]⟩
  | cons turn rest =>
    rw [step_of_turn ha] at h
    cases turn with
    | controller => exact .inl ⟨_, .inr ⟨rest, ha, rfl⟩, h⟩
    | reset =>
      simp only [runTurn, Host.Outcome.next.injEq] at h
      exact .inr (.inr (.inr (.inr (.inr ⟨rest, rfl, h.symm⟩))))
    | hostRead w off =>
      simp only [runTurn, hostRead] at h
      cases hr : HostReg.accessed w off with
      | none => simp [hr] at h
      | some r =>
        have hval : ({ s with agenda := rest } : State).hostValue r = s.hostValue r := by cases r <;> rfl
        cases hv : s.hostValue r with
        | none => simp [hr, hval, hv] at h
        | some v =>
          simp only [hr, hval, hv, Host.Outcome.next.injEq] at h
          exact .inr (.inl ⟨rest, w, off, r, v, rfl, hr, hv, h.symm⟩)
    | hostWrite w off v =>
      simp only [runTurn, hostWrite] at h
      cases hr : HostReg.accessed w off with
      | none => simp [hr] at h
      | some r =>
        simp only [hr] at h
        cases r with
        | cmd =>
          cases hb : s.busy with
          | true => simp [writeReg, writeCmd, hb] at h
          | false =>
            simp [writeReg, writeCmd, hb] at h
            exact .inr (.inr (.inl ⟨rest, w, off, v, rfl, hr, rfl, h.symm⟩))
        | timeout =>
          cases hb : s.busy with
          | true => simp [writeReg, writeTimeout, hb] at h
          | false =>
            simp [writeReg, writeTimeout, hb] at h
            exact .inr (.inr (.inr (.inl ⟨rest, w, off, v, rfl, hr, rfl, h.symm⟩)))
        | status => exact .inr (.inr (.inr (.inr (.inl ⟨rest, w, off, _, v, rfl, hr, by
            simpa [writeReg] using h.symm⟩))))
        | result => exact .inr (.inr (.inr (.inr (.inl ⟨rest, w, off, _, v, rfl, hr, by
            simpa [writeReg] using h.symm⟩))))
        | cfgMirror => exact .inr (.inr (.inr (.inr (.inl ⟨rest, w, off, _, v, rfl, hr, by
            simpa [writeReg] using h.symm⟩))))
        | busAddr => exact .inr (.inr (.inr (.inr (.inl ⟨rest, w, off, _, v, rfl, hr, by
            simpa [writeReg] using h.symm⟩))))

/-- One step of a run. -/
theorem runFor_succ {k : Nat} {s t : State} (h : step s = .next t) : runFor (k + 1) s = runFor k t := by
  have hc : Sys2Proof.core.step s = .next t := h
  simp only [runFor, Host.Core.run, hc]
  rfl

theorem runFor_zero (s : State) : runFor 0 s = .next s := rfl

/-- An access reaches a register exactly when it is 32 bits wide and at one of the six offsets (10_state.md R15, R16). -/
theorem accessed_iff (w off : Nat) (r : HostReg) :
    HostReg.accessed w off = some r ↔ w = 32 ∧
      ((off = 0x00 ∧ r = .cmd) ∨ (off = 0x04 ∧ r = .status) ∨ (off = 0x08 ∧ r = .result) ∨
        (off = 0x0C ∧ r = .cfgMirror) ∨ (off = 0x10 ∧ r = .busAddr) ∨ (off = 0x14 ∧ r = .timeout)) := by
  unfold HostReg.accessed HostReg.ofOffset
  constructor
  · intro h
    split at h
    · rename_i hw
      split at h <;> simp_all
    · simp at h
  · rintro ⟨rfl, h⟩
    rcases h with ⟨rfl, rfl⟩ | ⟨rfl, rfl⟩ | ⟨rfl, rfl⟩ | ⟨rfl, rfl⟩ | ⟨rfl, rfl⟩ | ⟨rfl, rfl⟩ <;> rfl

end Sys2Proof.Machine
end

