-- ==== Sys2Proof/Laws/Frames.lean ====
section
/-! SUPPORT. What a controller step leaves unchanged, said once for a `DECODE` step's effect and once for a bus step,
and small facts about the answers, the transactions and the bus log. -/

namespace Sys2Proof.Machine

/-- A controller step starts from the state itself but for the turn it uses up. -/
theorem controllerNext_frame {s s0 : State} (h : ControllerNext s s0) :
    s0 = { s with agenda := s0.agenda } ∧ s0.agenda <:+ s.agenda ∧ s.agenda.head? ≠ some .reset ∧
      (s.agenda = [] ∨ ∃ rest, s.agenda = .controller :: rest) := by
  rcases h with ⟨h, rfl⟩ | ⟨rest, h, rfl⟩
  · exact ⟨rfl, List.suffix_refl _, by simp [h], .inl h⟩
  · simp [h]

/-- What no command's effect touches in the `DECODE` step; the session's address and `BOUND` only `BIND` writes. -/
theorem effect_frame {i : Instr} {s t : State} (h : Effect i s t) :
    t.config = s.config ∧ t.timeout = s.timeout ∧ t.latch = s.latch ∧ t.latchTimeout = s.latchTimeout ∧
      t.agenda = s.agenda ∧ t.hostLog = s.hostLog ∧ t.asked = s.asked ∧ t.staleIdx = s.staleIdx ∧
      t.script = s.script ∧ t.busLog = s.busLog ∧
      (t.bound = s.bound ∧ t.sessAddr = s.sessAddr ∨
        s.bound = false ∧ ∃ df a c, i = .bind df a c ∧ t.sessAddr = a ∧ t.bound = true ∧ t.errCode = .ok) := by
  cases i <;> simp only [Effect] at h
  case busWrite => obtain ⟨-, -, -, rfl⟩ := h; simp [State.startWrite_eq]
  case busRead => obtain ⟨-, -, -, rfl⟩ := h; simp [State.startRead_eq]
  case encConfig => obtain ⟨_, -, -, rfl⟩ := h; simp
  case decConv => subst h; simp
  case decStatus => subst h; simp
  case encThresh => subst h; simp
  case bind => obtain ⟨h, -, rfl⟩ := h; simp [h]
  case setField => obtain ⟨-, _, -, -, -, rfl⟩ := h; simp
  case reqChan => obtain ⟨-, -, rfl⟩ := h; simp [State.startWrite_eq]
  case isReady => obtain ⟨-, rfl⟩ := h; simp [State.startRead_eq]
  case readConv => obtain ⟨-, rfl⟩ := h; simp [State.startRead_eq]
  case setThresh => obtain ⟨-, -, rfl⟩ := h; simp [State.startWrite_eq]

/-- A command's effect completes it with `OK`, or leaves it running with a transaction set up. -/
theorem effect_ends {i : Instr} {s t : State} (h : Effect i s t) :
    (t.errCode = .ok ∧ t.busy = false ∧ t.phase = .idle ∧ t.fail = none) ∨
      (t.errCode = s.errCode ∧ t.busy = s.busy ∧ t.fail = s.fail ∧ ∃ x, t.phase = .bus x ∧ x.cmd = i) := by
  cases i <;> simp only [Effect] at h
  case busWrite => obtain ⟨-, -, -, rfl⟩ := h; simp [State.startWrite_eq]
  case busRead => obtain ⟨-, -, -, rfl⟩ := h; simp [State.startRead_eq]
  case encConfig => obtain ⟨_, -, -, rfl⟩ := h; simp
  case decConv => subst h; simp
  case decStatus => subst h; simp
  case encThresh => subst h; simp
  case bind => obtain ⟨-, -, rfl⟩ := h; simp
  case setField => obtain ⟨-, _, -, -, -, rfl⟩ := h; simp
  case reqChan => obtain ⟨-, -, rfl⟩ := h; simp [State.startWrite_eq]
  case isReady => obtain ⟨-, rfl⟩ := h; simp [State.startRead_eq]
  case readConv => obtain ⟨-, rfl⟩ := h; simp [State.startRead_eq]
  case setThresh => obtain ⟨-, -, rfl⟩ := h; simp [State.startWrite_eq]

/-- What no bus step touches, and the one event it adds. -/
theorem busStep_frame (t : Txn) (s : State) :
    (busStep t s).config = s.config ∧ (busStep t s).bound = s.bound ∧ (busStep t s).sessAddr = s.sessAddr ∧
      (busStep t s).cfgMirror = s.cfgMirror ∧ (busStep t s).timeout = s.timeout ∧ (busStep t s).latch = s.latch ∧
      (busStep t s).latchTimeout = s.latchTimeout ∧ (busStep t s).agenda = s.agenda ∧
      (busStep t s).hostLog = s.hostLog ∧ s.asked ≤ (busStep t s).asked ∧ s.staleIdx ≤ (busStep t s).staleIdx ∧
      (busStep t s).script <:+ s.script ∧ ∃ e, (busStep t s).busLog = s.busLog ++ [e] := by
  rcases busStep_cases t s with ⟨c, -, h⟩ | ⟨-, c, -, h⟩ | ⟨-, -, -, h⟩ | ⟨-, op, rest, e, fl, sc, -, -, -, h⟩ <;> rw [h]
  · simp [State.closeTxn_eq]
  · simp [State.abort_eq, List.tail_suffix]
  · cases txnResult t.cmd s.scratch <;> simp [State.closeTxn_eq, List.tail_suffix]
  · simp [List.tail_suffix]

theorem NackCause.code_ne_ok (c : NackCause) : c.code ≠ .ok := by cases c <;> simp [NackCause.code]

/-- At a step the controller drives, a failure is answered exactly when the answer is one. -/
theorem abortDriven_eq (cfg : Config) (a : Answer) : a.abortDriven cfg =
    if saysTimeout cfg a then some .timeout else if saysArbLost cfg a then some .arbLost else none := by
  unfold Answer.abortDriven saysArbLost saysTimeout
  cases cfg.timeoutAnyStep <;> cases cfg.arbLoss <;> cases a.timeout <;> cases a.arbLost <;> rfl

/-- At a received byte and at a stop, exactly when the answer is a timeout. -/
theorem abortUndriven_eq (cfg : Config) (a : Answer) :
    a.abortUndriven cfg = if saysTimeout cfg a then some .timeout else none := by
  unfold Answer.abortUndriven saysTimeout
  cases cfg.timeoutAnyStep <;> cases a.timeout <;> rfl

theorem AbortCause.code_ne_ok (c : AbortCause) : c.code ≠ .ok := by cases c <;> simp [AbortCause.code]

/-- The answer a bus step uses is the next one. -/
theorem nextAnswer_eq (s : State) : s.nextAnswer = s.answerAt 0 := by
  unfold State.nextAnswer State.answerAt
  cases s.script <;> simp

/-- An answer that neither fails nor refuses, whatever the parameters. -/
theorem succeeds_reads {cfg : Config} {a : Answer} (h : a.succeeds = true) :
    a.abortDriven cfg = none ∧ a.abortUndriven cfg = none ∧ a.ack = true := by
  simp only [Answer.succeeds, Bool.and_eq_true, Bool.not_eq_true'] at h
  simp [Answer.abortDriven, Answer.abortUndriven, h]

/-- One event more on the log. -/
theorem ownerAfter_append (o : Bool) (l : List BusEvent) (e : BusEvent) :
    ownerAfter o (l ++ [e]) = (ownerAfter o l).bind fun o' => ownAfter o' e := by
  induction l generalizing o with
  | nil => simp only [List.nil_append, ownerAfter, Option.bind_some]; cases ownAfter o e <;> rfl
  | cons a l ih => simp only [List.cons_append, ownerAfter]; cases ownAfter o a <;> simp [ih]

/-- `STATUS` as a number (10_state.md R18). -/
theorem statusWord_eq (s : State) :
    s.statusWord = BitVec.ofNat 32 (s.errCode.bits.toNat * 16 + s.bound.toNat * 2 + s.busy.toNat) := by
  unfold State.statusWord
  cases s.errCode <;> cases s.bound <;> cases s.busy <;> decide

end Sys2Proof.Machine
end

