-- ==== Sys2Proof/Laws/PerInstr.lean ====
section
/-! SUPPORT. One family of lemmas per constructor of `Instr`: the word of a command matches the command's own row of
the opcode map, so it has that row's opcode and none of its reserved bits (30_encoding.md R69). -/

namespace Sys2Proof.Laws.EncodeRow

/-- The command's word matches the row of its mnemonic. -/
def Statement (i : Instr) : Prop := ∃ r ∈ opcodeMap, r.mnemonic = i.mnemonic ∧ r.accepts (encode i)

theorem busWrite (reg : Byte) (n : BitVec 2) (data : Half) : Statement (.busWrite reg n data) := by
  refine ⟨opcodeMap[0], by decide, rfl, ?_⟩
  rw [OpcodeRow.accepts, layoutT_ext]
  simp only [bitsAt_and, encode, layoutT_fields]
  simp [opcodeMap, bitsAt]

theorem busRead (reg : Byte) (n : BitVec 2) : Statement (.busRead reg n) := by
  refine ⟨opcodeMap[1], by decide, rfl, ?_⟩
  rw [OpcodeRow.accepts, layoutT_ext]
  simp only [bitsAt_and, encode, layoutT_fields]
  simp [opcodeMap, bitsAt]

theorem encConfig (field : BitVec 4) (value : Byte) (base : Half) : Statement (.encConfig field value base) := by
  refine ⟨opcodeMap[2], by decide, rfl, ?_⟩
  rw [OpcodeRow.accepts, layoutK_ext]
  simp only [bitsAt_and, encode, layoutK_fields]
  simp [opcodeMap, bitsAt]

theorem decConv (b : Half) : Statement (.decConv b) := by
  refine ⟨opcodeMap[3], by decide, rfl, ?_⟩
  rw [OpcodeRow.accepts, layoutB_ext]
  simp only [bitsAt_and, encode, layoutB_fields]
  simp [opcodeMap, bitsAt]

theorem decStatus (b : Half) : Statement (.decStatus b) := by
  refine ⟨opcodeMap[4], by decide, rfl, ?_⟩
  rw [OpcodeRow.accepts, layoutB_ext]
  simp only [bitsAt_and, encode, layoutB_fields]
  simp [opcodeMap, bitsAt]

theorem encThresh (value : Half) : Statement (.encThresh value) := by
  refine ⟨opcodeMap[5], by decide, rfl, ?_⟩
  rw [OpcodeRow.accepts, layoutB_ext]
  simp only [bitsAt_and, encode, layoutB_fields]
  simp [opcodeMap, bitsAt]

theorem bind (df : Bool) (addr : BusAddr) (cfg : Half) : Statement (.bind df addr cfg) := by
  refine ⟨opcodeMap[6], by decide, rfl, ?_⟩
  rw [OpcodeRow.accepts, layoutN_ext]
  simp only [bitsAt_and, encode, layoutN_fields]
  simp [opcodeMap, bitsAt]

theorem setField (field : BitVec 4) (value : Byte) : Statement (.setField field value) := by
  refine ⟨opcodeMap[7], by decide, rfl, ?_⟩
  rw [OpcodeRow.accepts, layoutK_ext]
  simp only [bitsAt_and, encode, layoutK_fields]
  simp [opcodeMap, bitsAt]

theorem reqChan (sel : Byte) : Statement (.reqChan sel) := by
  refine ⟨opcodeMap[8], by decide, rfl, ?_⟩
  rw [OpcodeRow.accepts, layoutK_ext]
  simp only [bitsAt_and, encode, layoutK_fields]
  simp [opcodeMap, bitsAt]

theorem isReady : Statement .isReady := ⟨opcodeMap[9], by decide, rfl, by decide⟩

theorem readConv : Statement .readConv := ⟨opcodeMap[10], by decide, rfl, by decide⟩

theorem setThresh (which : Byte) (value : Half) : Statement (.setThresh which value) := by
  refine ⟨opcodeMap[11], by decide, rfl, ?_⟩
  rw [OpcodeRow.accepts, layoutK_ext]
  simp only [bitsAt_and, encode, layoutK_fields]
  simp [opcodeMap, bitsAt]

end Sys2Proof.Laws.EncodeRow
end

