-- ==== Sys2Proof/Machine/FieldNames.lean ====
section
/-! DEFINITION. What the field codes are called (10_state.md R31 to R36): tables for a reader. The controller gives
the codes no meaning and no definition of the machine reads this file (R30). All but the end points of `pgaRange` and
the multiplexer code `0b101` are the spec's general knowledge. -/

namespace Sys2Proof.FieldNames

/-- A multiplexer code's inputs (R32): two inputs, or one against ground. -/
inductive MuxInput where
  | differential (pos neg : Fin 4)
  | singleEnded (input : Fin 4)
deriving DecidableEq, Repr

/-- R32. -/
def muxInput (code : BitVec 3) : MuxInput :=
  match code.toNat with
  | 0 => .differential 0 1
  | 1 => .differential 0 3
  | 2 => .differential 1 3
  | 3 => .differential 2 3
  | 4 => .singleEnded 0
  | 5 => .singleEnded 1
  | 6 => .singleEnded 2
  | _ => .singleEnded 3

/-- The full-scale range in millivolts (R33); the last two codes have no name in the source. -/
def pgaRange (code : BitVec 3) : Option Nat :=
  match code.toNat with
  | 0 => some 6144
  | 1 => some 4096
  | 2 => some 2048
  | 3 => some 1024
  | 4 => some 512
  | 5 => some 256
  | _ => none

/-- R34. -/
inductive ModeName where
  | continuous | singleShot
deriving DecidableEq, Repr

/-- R34. -/
def modeName (code : Bool) : ModeName := if code then .singleShot else .continuous

/-- The ADS1115 table of R35, in samples per second. -/
def rateADS1115 (code : BitVec 3) : Nat :=
  match code.toNat with
  | 0 => 8
  | 1 => 16
  | 2 => 32
  | 3 => 64
  | 4 => 128
  | 5 => 250
  | 6 => 475
  | _ => 860

/-- The ADS1015 table of R35, in samples per second. -/
def rateADS1015 (code : BitVec 3) : Nat :=
  match code.toNat with
  | 0 => 128
  | 1 => 250
  | 2 => 490
  | 3 => 920
  | 4 => 1600
  | 5 => 2400
  | _ => 3300

/-- After how many conversions the comparator asserts; `none` is the comparator disabled (R36 `COMP_QUE`). -/
def compQueue (code : BitVec 2) : Option Nat :=
  match code.toNat with
  | 0 => some 1
  | 1 => some 2
  | 2 => some 4
  | _ => none

/-- R36 `COMP_MODE`, `COMP_POL`, `COMP_LAT`. -/
structure Comparator where
  window : Bool
  activeHigh : Bool
  latching : Bool
deriving DecidableEq, Repr

/-- The comparator bits of a configuration word (R29, R36). -/
def comparator (w : Half) : Comparator := ⟨w.getLsbD 4, w.getLsbD 3, w.getLsbD 2⟩

end Sys2Proof.FieldNames
end

