-- ==== Sys2Proof/Tests/Slice0.lean ====
section
/-! SUPPORT. Tests and witnesses. Each expected value is from the spec: the patterns of 30_encoding.md R69, or the row
of 95_test_vectors.md named in the comment. A witness shows that a statement's hypotheses are met together, once for
each of its clauses, at a boundary value where there is one. -/

open Sys2Proof Sys2Proof.Machine Sys2Proof.Claims

namespace Sys2Proof.Tests

/-- A property of the next state; false of a stop. -/
def after (r : Result) (p : State → Bool) : Bool :=
  match r with
  | .next t => p t
  | .fault _ => false
  | .refused _ => false

/-- Whether a step stops with this fault. -/
def faults (r : Result) (f : Fault) : Bool :=
  match r with
  | .next _ => false
  | .fault g => f = g
  | .refused _ => false

/-- The default start state of 95_test_vectors.md section 0. -/
def bound : State := { State.reset with bound := true, sessAddr := 0x48#7, cfgMirror := 0x8583#16 }

/-- The answer a test does not care about. -/
def yes : Answer := {}

/-- `RX`'s byte. -/
def sends (b : Byte) : Answer := { byte := b }

/-- `s` with the command `w` issued. -/
def issued (w : Word) (s : State) : State := s.issue w

/-- `IS_READY` with `k` of its bus steps behind it and the answers `as` to come. -/
def reading (k : Nat) (as : List Answer) : State :=
  { bound with
    busy := true, latch := 0xB0000000#32, script := as
    phase := .bus { dir := .rd, ptr := 0x01#8, n := 2, cmd := .isReady, todo := (readOps 0x48#7 0x01#8 2).drop k } }

/-- `SET_THRESH HIGH, 0x7FF0` with `k` of its bus steps behind it. -/
def writing (k : Nat) (as : List Answer) : State :=
  { bound with
    busy := true, latch := 0xD0037FF0#32, script := as, scratch := ⟨0x7F#8, 0xF0#8⟩
    phase := .bus
      { dir := .wr, ptr := 0x03#8, n := 2, cmd := .setThresh 0x03#8 0x7FF0#16
        todo := (writeOps 0x48#7 0x03#8 2 ⟨0x7F#8, 0xF0#8⟩).drop k } }

/-- Eight answers that all succeed; the read bytes are `b0`, `b1`. -/
def allAck (b0 b1 : Byte) : List Answer := [yes, yes, yes, yes, yes, sends b0, sends b1, yes]

/-! ### The well-formedness checks refuse (60_exceptions.md R124) -/

theorem test_wf_busWrite_reg : (Instr.busWrite 0x04#8 2#2 0x8583#16).wf = false := by decide
theorem test_wf_busWrite_count : (Instr.busWrite 0x01#8 3#2 0#16).wf = false := by decide
theorem test_wf_busRead_reg : (Instr.busRead 0xFF#8 2#2).wf = false := by decide
theorem test_wf_busRead_zero : (Instr.busRead 0x01#8 0#2).wf = false := by decide
theorem test_wf_busRead_three : (Instr.busRead 0x01#8 3#2).wf = false := by decide
theorem test_wf_encConfig_id : (Instr.encConfig 9#4 0#8 0#16).wf = false := by decide
theorem test_wf_encConfig_one_bit : (Instr.encConfig 0#4 2#8 0#16).wf = false := by decide
theorem test_wf_encConfig_two_bits : (Instr.encConfig 8#4 4#8 0#16).wf = false := by decide
theorem test_wf_encConfig_three_bits : (Instr.encConfig 1#4 8#8 0#16).wf = false := by decide
theorem test_wf_bind : (Instr.bind true 0x48#7 1#16).wf = false := by decide
theorem test_wf_setField_os : (Instr.setField 0#4 0#8).wf = false := by decide
theorem test_wf_setField_id : (Instr.setField 15#4 0#8).wf = false := by decide
theorem test_wf_setField_wide : (Instr.setField 3#4 2#8).wf = false := by decide
theorem test_wf_reqChan : (Instr.reqChan 8#8).wf = false := by decide
theorem test_wf_setThresh_low : (Instr.setThresh 0x01#8 0#16).wf = false := by decide
theorem test_wf_setThresh_high : (Instr.setThresh 0x04#8 0#16).wf = false := by decide

/-- Every check also passes at its boundary. -/
theorem test_wf_accepts : (Instr.busWrite 0x03#8 2#2 0#16).wf && (Instr.busRead 0x03#8 1#2).wf &&
    (Instr.encConfig 8#4 3#8 0#16).wf && (Instr.bind true 0x48#7 0#16).wf && (Instr.setField 1#4 7#8).wf &&
    (Instr.reqChan 7#8).wf && (Instr.setThresh 0x02#8 0#16).wf && (Instr.setThresh 0x03#8 0#16).wf = true := by
  decide

/-! ### Words written out bit by bit from the patterns of 30_encoding.md R69 -/

theorem test_decode_busWrite :
    decode 0b00010010000000111000010110000011#32 = .ok (.busWrite 0x03#8 2#2 0x8583#16) := by decide
theorem test_decode_busRead :
    decode 0b00100001000000010000000000000000#32 = .ok (.busRead 0x01#8 1#2) := by decide
theorem test_decode_encConfig :
    decode 0b00111000000000111000010110000011#32 = .ok (.encConfig 8#4 3#8 0x8583#16) := by decide
theorem test_decode_decConv : decode 0b01000000000000001000000000000001#32 = .ok (.decConv 0x8001#16) := by decide
theorem test_decode_decStatus : decode 0b01010000000000000111111100000000#32 = .ok (.decStatus 0x7F00#16) := by decide
theorem test_decode_encThresh : decode 0b01100000000000001111111110011100#32 = .ok (.encThresh 0xFF9C#16) := by decide
theorem test_decode_bind_word :
    decode 0b10000000010010010001001000110100#32 = .ok (.bind false 0x49#7 0x1234#16) := by decide
theorem test_decode_bind_default :
    decode 0b10001000010010000000000000000000#32 = .ok (.bind true 0x48#7 0#16) := by decide
theorem test_decode_setField : decode 0b10010100000001110000000000000000#32 = .ok (.setField 4#4 7#8) := by decide
theorem test_decode_reqChan : decode 0b10100000000001010000000000000000#32 = .ok (.reqChan 5#8) := by decide
theorem test_decode_isReady : decode 0b10110000000000000000000000000000#32 = .ok .isReady := by decide
theorem test_decode_readConv : decode 0b11000000000000000000000000000000#32 = .ok .readConv := by decide
theorem test_decode_setThresh :
    decode 0b11010000000000101111111110011100#32 = .ok (.setThresh 0x02#8 0xFF9C#16) := by decide

/-- R70's four opcodes, with every other bit set. -/
theorem test_decode_reserved_opcodes : decode 0x0FFFFFFF#32 = .error .reservedOpcode ∧
    decode 0x7FFFFFFF#32 = .error .reservedOpcode ∧ decode 0xEFFFFFFF#32 = .error .reservedOpcode ∧
    decode 0xFFFFFFFF#32 = .error .reservedOpcode := by decide

/-- T7, T19, K26, K33, K40, S7, S16, S23, S32, S45: one reserved bit set. -/
theorem test_decode_reserved_bits : [0x1A018583#32, 0x22000001#32, 0x40018000#32, 0x58000583#32, 0x6010FF9C#32,
    0x80C80000#32, 0x92010001#32, 0xA1050000#32, 0xB0000001#32, 0xD102FF9C#32].all
      (fun w => decode w = .error .reservedBits) = true := by decide

/-! ### One step of each command -/

/-- T1: the `DECODE` step stages the payload, high byte first. -/
theorem test_busWrite_stages : after (exec (.busWrite 0x01#8 2#2 0x8583#16) bound)
    (fun t => t.scratch = ⟨0x85#8, 0x83#8⟩ ∧ t.txn.map Txn.ptr = some 0x01#8 ∧ t.busLog = []) = true := by decide
/-- T8. -/
theorem test_busWrite_unbound : after (exec (.busWrite 0x01#8 2#2 0x8583#16) State.reset)
    (fun t => t.errCode = .invalidArgument ∧ t.phase = .idle) = true := by decide
/-- T17: one byte to receive, the last. -/
theorem test_busRead_one : after (exec (.busRead 0x01#8 1#2) bound)
    (fun t => t.txn.map (·.todo.getLast?) = some (some (.rx 0 true))) = true := by decide
/-- T18. -/
theorem test_busRead_zero : after (exec (.busRead 0x01#8 0#2) bound) (fun t => t.errCode = .invalidArgument) = true := by
  decide
/-- K1. -/
theorem test_encConfig_mux : after (exec (.encConfig 1#4 5#8 0x8583#16) State.reset)
    (fun t => t.result = 0x0000D583#32 ∧ t.errCode = .ok) = true := by decide
/-- K15. -/
theorem test_encConfig_wide : after (exec (.encConfig 8#4 4#8 0#16) State.reset)
    (fun t => t.errCode = .invalidArgument ∧ t.resultHeld = false) = true := by decide
/-- K21. -/
theorem test_decConv_negative : after (exec (.decConv 0x8000#16) State.reset) (fun t => t.result = 0xFFFF8000#32) = true := by
  decide
/-- K24: the byte order. -/
theorem test_decConv_order : after (exec (.decConv 0x0080#16) State.reset) (fun t => t.result = 0x00000080#32) = true := by
  decide
/-- K27. -/
theorem test_decStatus_true : after (exec (.decStatus 0x7FFF#16) State.reset) (fun t => t.result = 1#32) = true := by decide
/-- K28. -/
theorem test_decStatus_false : after (exec (.decStatus 0x8000#16) State.reset)
    (fun t => t.result = 0#32 ∧ t.resultHeld = true) = true := by decide
/-- K36: not sign-extended. -/
theorem test_encThresh_negative : after (exec (.encThresh 0x8000#16) State.reset)
    (fun t => t.result = 0x00008000#32) = true := by decide
/-- K38: the low bits are kept. -/
theorem test_encThresh_low_bits : after (exec (.encThresh 0x0007#16) State.reset)
    (fun t => t.result = 0x00000007#32) = true := by decide
/-- S1. -/
theorem test_bind_default : after (exec (.bind true 0x48#7 0#16) State.reset)
    (fun t => t.bound = true ∧ t.sessAddr = 0x48#7 ∧ t.cfgMirror = 0x8583#16) = true := by decide
/-- S5. -/
theorem test_bind_twice : after (exec (.bind true 0x49#7 0#16) bound)
    (fun t => t.errCode = .invalidArgument ∧ t.sessAddr = 0x48#7 ∧ t.bound = true) = true := by decide
/-- S8. -/
theorem test_setField_gain : after (exec (.setField 2#4 1#8) bound) (fun t => t.cfgMirror = 0x8383#16) = true := by decide
/-- S13. -/
theorem test_setField_os : after (exec (.setField 0#4 0#8) bound)
    (fun t => t.errCode = .invalidArgument ∧ t.cfgMirror = 0x8583#16) = true := by decide
/-- S20: from an all-zero mirror. -/
theorem test_reqChan_mirror : after (exec (.reqChan 7#8) { bound with cfgMirror := 0#16 })
    (fun t => t.cfgMirror = 0xF000#16 ∧ t.scratch = ⟨0xF0#8, 0x00#8⟩) = true := by decide
/-- S22. -/
theorem test_reqChan_eight : after (exec (.reqChan 8#8) bound)
    (fun t => t.errCode = .invalidArgument ∧ t.cfgMirror = 0x8583#16) = true := by decide
/-- S28: the last step of the read, with the bytes already in `SCRATCH`. -/
theorem test_isReady_result : after (step { reading 7 [yes] with scratch := ⟨0x85#8, 0x83#8⟩ })
    (fun t => t.result = 0#32 ∧ t.resultHeld = true ∧ t.busLog = [.stop]) = true := by decide
/-- S33. -/
theorem test_isReady_unbound : after (exec .isReady State.reset) (fun t => t.errCode = .invalidArgument) = true := by decide
/-- S36: the last step of the read. -/
theorem test_readConv_result :
    after (step { bound with busy := true, script := [yes], scratch := ⟨0x80#8, 0x00#8⟩,
                             phase := .bus { dir := .rd, ptr := 0x00#8, n := 2, cmd := .readConv, todo := [] } })
      (fun t => t.result = 0xFFFF8000#32 ∧ t.errCode = .ok ∧ t.busy = false) = true := by decide
/-- S34: the pointer byte. -/
theorem test_readConv_pointer : after (exec .readConv bound) (fun t => t.txn.map Txn.ptr = some 0x00#8) = true := by decide
/-- S41: all 16 bits are sent. -/
theorem test_setThresh_low_bits : after (exec (.setThresh 0x03#8 0x0007#16) bound)
    (fun t => t.scratch = ⟨0x00#8, 0x07#8⟩) = true := by decide
/-- S42. -/
theorem test_setThresh_config : after (exec (.setThresh 0x01#8 0#16) bound)
    (fun t => t.errCode = .invalidArgument ∧ t.phase = .idle ∧ t.busLog = []) = true := by decide

/-! ### Bus steps -/

/-- T12: arbitration lost at the start. -/
theorem test_bus_arbitration : after (step (writing 0 [{ arbLost := true }]))
    (fun t => t.busLog = [.abort .arbLost] ∧ t.errCode = .arbLost ∧ t.busy = false) = true := by decide
/-- T9: the address is not acknowledged; the stop comes in the next step. -/
theorem test_bus_nack : after (step (writing 1 [{ ack := false }]))
    (fun t => t.busLog = [.tx 0x90#8 .nack] ∧ t.fail = some .addr ∧ t.busy = true) = true := by decide
/-- T9: that stop, which asks nothing. -/
theorem test_bus_nack_stop : after (step { writing 2 [] with fail := some .addr })
    (fun t => t.busLog = [.stop] ∧ t.errCode = .addrNack ∧ t.asked = 0) = true := by decide
/-- T16: all but the last byte are acknowledged. -/
theorem test_bus_receive : after (step (reading 5 [sends 0x85#8]))
    (fun t => t.busLog = [.rx 0x85#8 .ack] ∧ t.scratch.b0 = 0x85#8) = true := by decide
theorem test_bus_receive_last : after (step (reading 6 [sends 0x83#8]))
    (fun t => t.busLog = [.rx 0x83#8 .nack] ∧ t.scratch.b1 = 0x83#8) = true := by decide
/-- R12: arbitration is not lost on a received byte. -/
theorem test_bus_receive_no_arbitration : after (step (reading 5 [{ arbLost := true, byte := 0x12#8 }]))
    (fun t => t.busLog = [.rx 0x12#8 .ack]) = true := by decide
/-- T15: a timeout at the final stop. -/
theorem test_bus_stop_timeout : after (step (writing 5 [{ timeout := true }]))
    (fun t => t.busLog = [.abort .timeout] ∧ t.errCode = .timeout) = true := by decide

/-! ### The host's side (95_test_vectors.md section 5) -/

/-- H1, H2. -/
theorem test_host_reset_status : after (step { State.reset with agenda := [.hostRead 32 0x04] })
    (fun t => t.hostLog = [0#32]) = true := by decide
theorem test_host_reset_timeout : after (step { State.reset with agenda := [.hostRead 32 0x14] })
    (fun t => t.hostLog = [0x000001F4#32]) = true := by decide
/-- H3, H4. -/
theorem test_host_unwritten : [0x08, 0x0C, 0x10].all (fun off =>
    faults (step { State.reset with agenda := [.hostRead 32 off] }) .unwrittenRead) = true := by decide
/-- H5. -/
theorem test_host_mirror : after (step { bound with agenda := [.hostRead 32 0x0C] })
    (fun t => t.hostLog = [0x00008583#32]) = true := by decide
/-- H7. -/
theorem test_host_status_read_only : after (step { bound with agenda := [.hostWrite 32 0x04 0xFFFFFFFF#32] })
    (fun t => t.statusWord = 0x00000002#32) = true := by decide
/-- H8, H9. -/
theorem test_host_overlap : [0x00, 0x14].all (fun off =>
    faults (step { writing 2 [] with agenda := [.hostWrite 32 off 0xB0000000#32] }) .hostOverlap) = true := by decide
/-- H10. -/
theorem test_host_bad_access : [(16, 0x04), (32, 0x06), (32, 0x18)].all (fun p =>
    faults (step { bound with agenda := [.hostRead p.1 p.2] }) .hostBadAccess) = true := by decide
/-- H12. -/
theorem test_host_busy_status : (issued 0x12018583#32 bound).statusWord = 0x00000003#32 := by decide
/-- `ERRCODE` in bits 7:4, as R123 numbers the outcomes. -/
theorem test_host_status_codes :
    [Code.ok, .invalidArgument, .addrNack, .dataNack, .arbLost, .timeout].map
      (fun c => State.statusWord { bound with errCode := c }) =
    [0x00000002#32, 0x00000012#32, 0x00000022#32, 0x00000032#32, 0x00000042#32, 0x00000052#32] := by decide
/-- H13. -/
theorem test_host_reset_mid_transaction : after (step { writing 2 [] with agenda := [.reset], busLog := [.start] })
    (fun t => t.statusWord = 0#32 ∧ t.busLog = [] ∧ t.phase = .idle) = true := by decide

/-! ### Witnesses: encoding -/

theorem witness_DecoderAcceptsExactlyTheOpcodeMap : decode 0x12018583#32 = .ok (.busWrite 0x01#8 2#2 0x8583#16) ∧
    opcodeMap[0] ∈ opcodeMap ∧ opcodeMap[0].accepts 0x12018583#32 := by decide

/-- The two kinds of reserved word, each latched in a state that decodes next. -/
theorem witness_ReservedWordsAreRefused_opcode : ControllerNext (issued 0x7FFFFFFF#32 bound) (issued 0x7FFFFFFF#32 bound) ∧
    (issued 0x7FFFFFFF#32 bound).phase = .decode ∧ reservedWord (issued 0x7FFFFFFF#32 bound).latch :=
  ⟨.inl ⟨rfl, rfl⟩, rfl, .inl (by decide)⟩
theorem witness_ReservedWordsAreRefused_bits : ControllerNext (issued 0xB0000001#32 bound) (issued 0xB0000001#32 bound) ∧
    (issued 0xB0000001#32 bound).phase = .decode ∧ reservedWord (issued 0xB0000001#32 bound).latch :=
  ⟨.inl ⟨rfl, rfl⟩, rfl, .inr (by decide)⟩

/-- With the controller's turn first on the agenda, and with an empty agenda. -/
theorem witness_StepRunsTheDecodedCommand :
    ControllerNext { issued 0x88480000#32 State.reset with agenda := [.controller] } (issued 0x88480000#32 State.reset) ∧
    (issued 0x88480000#32 State.reset).phase = .decode ∧
    decode (issued 0x88480000#32 State.reset).latch = .ok (.bind true 0x48#7 0#16) ∧
    decodeTableWord 32 0x88480000 = some (.bind true 0x48#7 0#16) :=
  ⟨.inr ⟨[], rfl, rfl⟩, rfl, by decide, by decide⟩

/-! ### Witnesses: reset and the host -/

theorem witness_ResetEventAbandonsEverything : ({ writing 2 [] with agenda := [.reset] } : State).agenda = .reset :: [] := rfl

theorem witness_HostReadReturnsTheRegister : 0x14 ∈ offsets ∧
    ({ bound with agenda := [.hostRead 32 0x14] } : State).agenda = .hostRead 32 0x14 :: [] ∧
    readAt bound 0x14 = some 500#32 ∧ readAt bound 0x08 = none ∧ readAt bound 0x10 = some 0x48#32 := by decide

theorem witness_HostAccessIsWholeRegistersOnly : ¬ (16 = 32 ∧ 0x04 ∈ offsets) ∧ ¬ (32 = 32 ∧ 0x18 ∈ offsets) ∧
    0x04 ∈ [0x04, 0x08, 0x0C, 0x10] ∧ 0x10 ∈ [0x04, 0x08, 0x0C, 0x10] ∧
    ({ bound with agenda := [.hostRead 16 0x04] } : State).agenda = .hostRead 16 0x04 :: [] ∧
    ({ bound with agenda := [.hostWrite 32 0x18 0#32] } : State).agenda = .hostWrite 32 0x18 0#32 :: [] ∧
    ({ bound with agenda := [.hostWrite 32 0x10 1#32] } : State).agenda = .hostWrite 32 0x10 1#32 :: [] ∧
    ({ bound with agenda := [.hostRead 32 0x00] } : State).agenda = .hostRead 32 0x00 :: [] := by decide

theorem witness_CmdWriteIssuesTheCommand :
    ({ bound with agenda := [.hostWrite 32 0x00 0xB0000000#32] } : State).agenda = .hostWrite 32 0x00 0xB0000000#32 :: [] ∧
    bound.busy = false ∧ (writing 0 []).busy = true := by decide

theorem witness_WritesWhileBusyFault : 0x00 ∈ [0x00, 0x14] ∧ 0x14 ∈ [0x00, 0x14] ∧ (writing 0 []).busy = true ∧
    bound.busy = false ∧ ({ bound with agenda := [.hostWrite 32 0x14 0#32] } : State).agenda = .hostWrite 32 0x14 0#32 :: [] := by
  decide

theorem witness_IdleControllerDoesNotStep : ControllerNext bound bound ∧ bound.phase = .idle := ⟨.inl ⟨rfl, rfl⟩, rfl⟩

/-! ### Witnesses: the codec -/

theorem witness_FieldEncodingPreservesTheRest : Field.os.fits 1#8 = true ∧ Field.mux.fits 7#8 = true ∧
    Field.compQue.fits 3#8 = true ∧ Field.os ≠ Field.mux := by decide

theorem witness_EncConfigPutsTheFieldInResult : (8, 0, 2, 0x0003#16) ∈ fieldTable ∧ (8#4).toNat = 8 ∧ (3#8).toNat < 2 ^ 2 ∧
    8 < (9#4).toNat ∧ (∃ r ∈ fieldTable, (8#4).toNat = r.1 ∧ 2 ^ r.2.2.1 ≤ (4#8).toNat) := by decide

theorem witness_CodecHasNoState : (Instr.decConv 0x8000#16).isCodec = true ∧
    ControllerNext (issued 0x40008000#32 bound) (issued 0x40008000#32 bound) ∧
    ControllerNext (issued 0x40008000#32 State.reset) (issued 0x40008000#32 State.reset) ∧
    (issued 0x40008000#32 bound).phase = .decode ∧
    decode (issued 0x40008000#32 bound).latch = .ok (.decConv 0x8000#16) ∧
    (issued 0x40008000#32 State.reset).latch = (issued 0x40008000#32 bound).latch :=
  ⟨rfl, .inl ⟨rfl, rfl⟩, .inl ⟨rfl, rfl⟩, rfl, by decide, rfl⟩

/-! ### Witnesses: the checks and the session's commands -/

/-- A decoded command refused, and one not. -/
theorem witness_InvalidArgumentHasExactlyItsCauses :
    ControllerNext (issued 0xA0080000#32 bound) (issued 0xA0080000#32 bound) ∧
    (issued 0xA0080000#32 bound).phase = .decode ∧ decode (issued 0xA0080000#32 bound).latch = .ok (.reqChan 8#8) ∧
    invalidCause true (.reqChan 8#8) ∧ ¬ invalidCause true (.reqChan 7#8) :=
  ⟨.inl ⟨rfl, rfl⟩, rfl, by decide, .inr (by decide), by simp [invalidCause]⟩

theorem witness_RefusedCommandChangesOnlyStatus :
    ControllerNext (issued 0xA0080000#32 bound) (issued 0xA0080000#32 bound) ∧
    (issued 0xA0080000#32 bound).phase = .decode ∧
    step (issued 0xA0080000#32 bound) = .next (issued 0xA0080000#32 bound).refuse ∧
    (issued 0xA0080000#32 bound).refuse.errCode = .invalidArgument ∧ (issued 0xA0080000#32 bound).refuse.phase = .idle :=
  ⟨.inl ⟨rfl, rfl⟩, rfl, rfl, rfl, rfl⟩

theorem witness_WellFormedCommandsAreNotRefused : ((Instr.reqChan 8#8).needsSession = true → bound.bound = true) ∧
    ((∃ df a c, Instr.reqChan 8#8 = .bind df a c) → bound.bound = false) :=
  ⟨fun _ => rfl, fun ⟨_, _, _, h⟩ => by cases h⟩

theorem witness_NoCommandIsFatal : ControllerNext (issued 0#32 bound) (issued 0#32 bound) ∧
    (issued 0#32 bound).phase ≠ .idle ∧ step (issued 0#32 bound) = .next (issued 0#32 bound).refuse ∧
    (issued 0#32 bound).refuse.phase = .idle :=
  ⟨.inl ⟨rfl, rfl⟩, by decide, rfl, rfl⟩

theorem witness_BindMakesTheSessionOnce : State.reset.bound = false ∧ bound.bound = true ∧ (1#16 : Half) ≠ 0#16 := by decide

theorem witness_SetFieldChangesOneField : bound.bound = true ∧ (1, 12, 3, 0x7000#16) ∈ fieldTable ∧ (1#4).toNat = 1 ∧
    (7#8).toNat < 2 ^ 3 ∧ State.reset.bound = false ∧ (0#4).toNat = 0 ∧ 8 < (9#4).toNat ∧
    (∃ r ∈ fieldTable, (1#4).toNat = r.1 ∧ 2 ^ r.2.2.1 ≤ (8#8).toNat) := by decide

theorem witness_ReqChanCommitsTheMirrorAndStarts : bound.bound = true ∧ (7#8).toNat ≤ 7 ∧ State.reset.bound = false ∧
    7 < (8#8).toNat := by decide

theorem witness_WriteCommandsStageAndStart : bound.bound = true ∧ (0x03#8).toNat ≤ 3 ∧ (2#2 : BitVec 2) ≠ 3#2 ∧
    3 < (0x04#8).toNat ∧ (0x01#8 ≠ (0x02#8 : Byte) ∧ 0x01#8 ≠ (0x03#8 : Byte)) ∧ State.reset.bound = false := by decide

theorem witness_ReadCommandsStart : bound.bound = true ∧ (0x03#8).toNat ≤ 3 ∧ 3 < (0x04#8).toNat ∧
    State.reset.bound = false := by decide

/-! ### Witnesses: the bus steps -/

/-- The transaction a state is in. -/
def txnOf (s : State) : Txn := s.txn.getD { dir := .wr, ptr := 0#8, n := 0, cmd := .isReady, todo := [] }

/-- `writing 0` with the parameters that rule the failures out. -/
def sheltered : State :=
  { writing 0 [{ timeout := true, arbLost := true }] with
    config := { arbLoss := false, timeoutAnyStep := false } }

theorem witness_ConditionStepEmitsOrAborts : ControllerNext (writing 0 [yes]) (writing 0 [yes]) ∧
    (writing 0 [yes]).phase = .bus (txnOf (writing 0 [yes])) ∧ (writing 0 [yes]).fail = none ∧
    (txnOf (writing 0 [yes])).todo = .cond .start :: (writeOps 0x48#7 0x03#8 2 ⟨0x7F#8, 0xF0#8⟩).drop 1 ∧
    (txnOf (reading 3 [yes])).todo = .cond .repStart :: (readOps 0x48#7 0x01#8 2).drop 4 ∧
    ¬ saysTimeout (writing 0 []).config ((writing 0 [yes]).answerAt 0) ∧
    ¬ saysArbLost (writing 0 []).config ((writing 0 [yes]).answerAt 0) ∧
    saysTimeout (writing 0 []).config ((writing 0 [{ timeout := true }]).answerAt 0) ∧
    saysArbLost (writing 0 []).config ((writing 0 [{ arbLost := true }]).answerAt 0) ∧
    ¬ saysTimeout sheltered.config (sheltered.answerAt 0) ∧ ¬ saysArbLost sheltered.config (sheltered.answerAt 0) :=
  ⟨.inl ⟨rfl, rfl⟩, rfl, rfl, rfl, rfl, by decide, by decide, by decide, by decide, by decide, by decide⟩

theorem witness_TransmitStepChecksTheAcknowledge : ControllerNext (writing 1 [yes]) (writing 1 [yes]) ∧
    (writing 1 [yes]).phase = .bus (txnOf (writing 1 [yes])) ∧ (writing 1 [yes]).fail = none ∧
    (txnOf (writing 1 [yes])).todo = .tx 0x90#8 .addr :: (writeOps 0x48#7 0x03#8 2 ⟨0x7F#8, 0xF0#8⟩).drop 2 ∧
    ¬ saysTimeout (writing 1 []).config ((writing 1 [yes]).answerAt 0) ∧
    ¬ saysArbLost (writing 1 []).config ((writing 1 [yes]).answerAt 0) ∧
    ((writing 1 [yes]).answerAt 0).ack = true ∧ ((writing 1 [{ ack := false }]).answerAt 0).ack = false ∧
    ¬ saysTimeout (writing 1 []).config ((writing 1 [{ ack := false }]).answerAt 0) ∧
    ¬ saysArbLost (writing 1 []).config ((writing 1 [{ ack := false }]).answerAt 0) ∧
    saysTimeout (writing 1 []).config ((writing 1 [{ timeout := true, arbLost := true }]).answerAt 0) ∧
    saysArbLost (writing 1 []).config ((writing 1 [{ arbLost := true }]).answerAt 0) :=
  ⟨.inl ⟨rfl, rfl⟩, rfl, rfl, rfl, by decide, by decide, rfl, rfl, by decide, by decide, by decide, by decide⟩

theorem witness_ReceiveStepStoresAndAnswers : ControllerNext (reading 5 [yes]) (reading 5 [yes]) ∧
    (reading 5 [yes]).phase = .bus (txnOf (reading 5 [yes])) ∧ (reading 5 [yes]).fail = none ∧
    (txnOf (reading 5 [yes])).todo = [.rx 0 false, .rx 1 true] ∧ (txnOf (reading 6 [yes])).todo = [.rx 1 true] ∧
    ¬ saysTimeout (reading 5 []).config ((reading 5 [yes]).answerAt 0) ∧
    ¬ saysTimeout (reading 5 []).config ((reading 5 [{ arbLost := true }]).answerAt 0) ∧
    saysTimeout (reading 5 []).config ((reading 5 [{ timeout := true }]).answerAt 0) :=
  ⟨.inl ⟨rfl, rfl⟩, rfl, rfl, rfl, rfl, by decide, by decide, by decide⟩

theorem witness_NackIsFollowedByStop :
    ControllerNext { writing 2 [] with fail := some .addr } { writing 2 [] with fail := some .addr } ∧
    ({ writing 2 [] with fail := some .addr } : State).phase = .bus (txnOf (writing 2 [])) ∧
    ({ writing 2 [] with fail := some .addr } : State).fail = some .addr :=
  ⟨.inl ⟨rfl, rfl⟩, rfl, rfl⟩

theorem witness_FinalStopCompletes : ControllerNext (reading 7 [yes]) (reading 7 [yes]) ∧
    (reading 7 [yes]).phase = .bus (txnOf (reading 7 [yes])) ∧ (reading 7 [yes]).fail = none ∧
    (txnOf (reading 7 [yes])).todo = [] ∧ ¬ saysTimeout (reading 7 []).config ((reading 7 [yes]).answerAt 0) ∧
    saysTimeout (reading 7 []).config ((reading 7 [{ timeout := true }]).answerAt 0) :=
  ⟨.inl ⟨rfl, rfl⟩, rfl, rfl, rfl, by decide, by decide⟩

theorem witness_OneEventPerBusStep : ControllerNext (reading 3 []) (reading 3 []) ∧
    (reading 3 []).phase = .bus (txnOf (reading 3 [])) := ⟨.inl ⟨rfl, rfl⟩, rfl⟩

theorem witness_ParametersRuleFailuresOut : ControllerNext sheltered sheltered ∧ sheltered.phase ≠ .idle ∧
    step sheltered = .next (busStep (txnOf sheltered) sheltered) ∧ sheltered.config.arbLoss = false ∧
    sheltered.config.timeoutAnyStep = false ∧ sheltered.errCode ≠ .arbLost ∧ sheltered.errCode ≠ .timeout :=
  ⟨.inl ⟨rfl, rfl⟩, by decide, rfl, rfl, rfl, by decide, by decide⟩

/-! ### Witnesses: whole commands -/

/-- `s` with `w` issued and the answers of `allAck` to come. -/
def primed (w : Word) : State := { issued w bound with script := allAck 0xFF#8 0x38#8 }

theorem witness_BusWriteRunsToCompletion : AtDecode (primed 0x12018583#32) (.busWrite 0x01#8 2#2 0x8583#16) ∧
    (0x01#8).toNat ≤ 3 ∧ (2#2 : BitVec 2) ≠ 3#2 ∧ Answered (primed 0x12018583#32) (List.replicate 5 yes ++ [sends 0xFF#8]) 6 :=
  ⟨⟨rfl, rfl, rfl, rfl, by decide⟩, by decide, by decide, ⟨⟨_, rfl⟩, rfl, by decide⟩⟩

theorem witness_SetThreshRunsToCompletion : AtDecode (primed 0xD002FF9C#32) (.setThresh 0x02#8 0xFF9C#16) ∧
    AtDecode (primed 0xD0030007#32) (.setThresh 0x03#8 0x0007#16) ∧
    Answered (primed 0xD002FF9C#32) (List.replicate 5 yes ++ [sends 0xFF#8]) 6 :=
  ⟨⟨rfl, rfl, rfl, rfl, by decide⟩, ⟨rfl, rfl, rfl, rfl, by decide⟩, ⟨⟨_, rfl⟩, rfl, by decide⟩⟩

theorem witness_ReqChanRunsToCompletion : AtDecode (primed 0xA0070000#32) (.reqChan 7#8) ∧ (7#8).toNat ≤ 7 ∧
    Answered (primed 0xA0070000#32) (List.replicate 5 yes ++ [sends 0xFF#8]) 6 :=
  ⟨⟨rfl, rfl, rfl, rfl, by decide⟩, by decide, ⟨⟨_, rfl⟩, rfl, by decide⟩⟩

theorem witness_BusReadRunsToCompletion_one : AtDecode (primed 0x21030000#32) (.busRead 0x03#8 1#2) ∧
    (0x03#8).toNat ≤ 3 ∧ Answered (primed 0x21030000#32) ((allAck 0xFF#8 0x38#8).take 7) 7 ∧
    ((allAck 0xFF#8 0x38#8).take 7)[5]?.map Answer.byte = some 0xFF#8 ∧
    ((allAck 0xFF#8 0x38#8).take 7)[6]?.map Answer.byte = some 0x38#8 :=
  ⟨⟨rfl, rfl, rfl, rfl, by decide⟩, by decide, ⟨⟨_, rfl⟩, rfl, by decide⟩, rfl, rfl⟩

theorem witness_BusReadRunsToCompletion_two : AtDecode (primed 0x22030000#32) (.busRead 0x03#8 2#2) ∧
    Answered (primed 0x22030000#32) (allAck 0xFF#8 0x38#8) 8 ∧
    (allAck 0xFF#8 0x38#8)[5]?.map Answer.byte = some 0xFF#8 ∧ (allAck 0xFF#8 0x38#8)[6]?.map Answer.byte = some 0x38#8 :=
  ⟨⟨rfl, rfl, rfl, rfl, by decide⟩, ⟨⟨_, rfl⟩, rfl, by decide⟩, rfl, rfl⟩

theorem witness_IsReadyRunsToCompletion : AtDecode (primed 0xB0000000#32) .isReady ∧
    Answered (primed 0xB0000000#32) (allAck 0xFF#8 0x38#8) 8 :=
  ⟨⟨rfl, rfl, rfl, rfl, by decide⟩, ⟨⟨_, rfl⟩, rfl, by decide⟩⟩

theorem witness_ReadConvRunsToCompletion : AtDecode (primed 0xC0000000#32) .readConv ∧
    Answered (primed 0xC0000000#32) (allAck 0xFF#8 0x38#8) 8 :=
  ⟨⟨rfl, rfl, rfl, rfl, by decide⟩, ⟨⟨_, rfl⟩, rfl, by decide⟩⟩

theorem witness_TransactionRefinesItsPseudocode : (reading 0 []).agenda = [] ∧
    (reading 0 []).phase = .bus (txnOf (reading 0 [])) ∧ (reading 0 []).fail = none := ⟨rfl, rfl, rfl⟩

/-- A running read meets the invariant, at its first step and further on. -/
theorem reading_inv (as : List Answer) : (reading 0 as).Inv ∧ (reading 5 as).Inv := by
  constructor <;>
  · refine ⟨⟨fun _ h => (by cases h), fun _ => rfl⟩, fun _ => rfl, fun h => absurd rfl h, fun t h => ?_⟩
    cases h
    exact ⟨(by decide : decode 0xB0000000#32 = .ok .isReady), rfl, rfl, rfl, List.drop_suffix _ _, fun v hv => by cases hv⟩

/-- A running write meets the invariant, with its bytes staged. -/
theorem writing_inv (as : List Answer) : (writing 2 as).Inv := by
  refine ⟨⟨fun _ h => (by cases h), fun _ => rfl⟩, fun _ => rfl, fun h => absurd rfl h, fun t h => ?_⟩
  cases h
  exact ⟨(by decide : decode 0xD0037FF0#32 = .ok (.setThresh 0x03#8 0x7FF0#16)), rfl, rfl, rfl, List.drop_suffix _ _,
    fun v hv => by cases hv; rfl⟩

/-- A state that has just been issued a command meets it. -/
theorem issued_inv (w : Word) : (issued w bound).Inv :=
  ⟨⟨fun _ h => (by cases h), fun _ => rfl⟩, fun _ => rfl, fun h => absurd rfl h, fun _ h => by cases h⟩

theorem witness_TransactionsEnd : (reading 0 []).Inv ∧ (reading 0 []).agenda = [] ∧
    (reading 0 []).phase = .bus (txnOf (reading 0 [])) := ⟨(reading_inv []).1, rfl, rfl⟩

theorem witness_FailedTransactionLeavesTheRest :
    ControllerNext (reading 5 [{ timeout := true }]) (reading 5 [{ timeout := true }]) ∧
    (reading 5 [{ timeout := true }]).phase = .bus (txnOf (reading 5 [])) ∧
    step (reading 5 [{ timeout := true }]) =
      .next (busStep (txnOf (reading 5 [])) (reading 5 [{ timeout := true }])) ∧
    (busStep (txnOf (reading 5 [])) (reading 5 [{ timeout := true }])).phase = .idle ∧
    (busStep (txnOf (reading 5 [])) (reading 5 [{ timeout := true }])).errCode ≠ .ok :=
  ⟨.inl ⟨rfl, rfl⟩, rfl, rfl, rfl, by decide⟩

/-! ### Witnesses: the whole machine -/

theorem witness_StepKeepsTheInvariant : (writing 2 [yes]).Inv ∧
    step (writing 2 [yes]) = .next (busStep (txnOf (writing 2 [])) (writing 2 [yes])) := ⟨writing_inv _, rfl⟩

theorem witness_StepKeepsTheBusFramed : (reading 0 [yes]).Inv ∧ (reading 0 [yes]).FramedLog ∧
    step (reading 0 [yes]) = .next (busStep (txnOf (reading 0 [])) (reading 0 [yes])) :=
  ⟨(reading_inv _).1, rfl, rfl⟩

/-- A second `BIND` in a bound session. -/
theorem witness_BoundAddressIsImmutable : (issued 0x88490000#32 bound).bound = true ∧
    step (issued 0x88490000#32 bound) = .next (issued 0x88490000#32 bound).refuse ∧
    (issued 0x88490000#32 bound).agenda.head? ≠ some .reset := ⟨rfl, rfl, by decide⟩

/-- The first one. -/
theorem witness_OnlyBindWritesTheAddress : ∃ t, step (issued 0x88480000#32 State.reset) = .next t ∧
    (issued 0x88480000#32 State.reset).agenda.head? ≠ some .reset ∧
    t.sessAddr ≠ (issued 0x88480000#32 State.reset).sessAddr := ⟨_, rfl, by decide, by decide⟩

/-- A `REQ_CHAN` that changes the mirror. -/
theorem witness_OnlyThreeCommandsWriteTheMirror : ∃ t, step (issued 0xA0050000#32 bound) = .next t ∧
    (issued 0xA0050000#32 bound).agenda.head? ≠ some .reset ∧ t.cfgMirror ≠ (issued 0xA0050000#32 bound).cfgMirror :=
  ⟨_, rfl, by decide, by decide⟩

/-- A result-producing command that succeeds, one that is refused, and a read of `RESULT` before either. -/
theorem witness_ResultIsWrittenOnSuccessOnly_written : (issued 0x40008000#32 bound).Inv ∧
    (∃ t, step (issued 0x40008000#32 bound) = .next t ∧ t.busy = false ∧ t.errCode = .ok) ∧
    (issued 0x40008000#32 bound).busy = true ∧
    (∃ i, decode (issued 0x40008000#32 bound).latch = .ok i ∧ i.producesResult = true) :=
  ⟨issued_inv _, ⟨_, rfl, rfl, rfl⟩, rfl, ⟨_, rfl, rfl⟩⟩
theorem witness_ResultIsWrittenOnSuccessOnly_refused : (issued 0x31080000#32 bound).Inv ∧
    (∃ t, step (issued 0x31080000#32 bound) = .next t ∧ t.errCode ≠ .ok) ∧ State.reset.resultHeld = false :=
  ⟨issued_inv _, ⟨_, rfl, by decide⟩, rfl⟩

theorem witness_RunningCommandIsFixed : (writing 2 [yes]).busy = true ∧
    step (writing 2 [yes]) = .next (busStep (txnOf (writing 2 [])) (writing 2 [yes])) ∧
    (writing 2 [yes]).agenda.head? ≠ some .reset := ⟨rfl, rfl, by decide⟩

/-- `BUSY` rising, falling, and staying. -/
theorem witness_BusyAndErrcodeChangeTogether :
    (∃ t, step { bound with agenda := [.hostWrite 32 0x00 0#32] } = .next t ∧ t.busy = true) ∧
    ((issued 0#32 bound).Inv ∧ ∃ t, step (issued 0#32 bound) = .next t ∧ t.busy = false) ∧
    ((writing 2 [yes]).Inv ∧ ∃ t, step (writing 2 [yes]) = .next t ∧ t.busy = (writing 2 [yes]).busy) :=
  ⟨⟨_, rfl, rfl⟩, ⟨issued_inv _, _, rfl, rfl⟩, ⟨writing_inv _, _, rfl, rfl⟩⟩

theorem witness_EarlyReadsSeeTheOldResult : (writing 2 [yes]).Inv ∧ (writing 2 [yes]).busy = true ∧
    ({ writing 2 [yes] with agenda := [.hostRead 32 0x04] } : State).agenda = .hostRead 32 0x04 :: [] ∧
    ∃ t, step (writing 2 [yes]) = .next t ∧ t.busy = true := ⟨writing_inv _, rfl, rfl, _, rfl, rfl⟩

/-- A step of the controller, and one of the host. -/
theorem witness_OutsideDataOnlyMovesForward : (∃ t, step (reading 3 [yes]) = .next t) ∧
    ∃ t, step { bound with agenda := [.hostRead 32 0x04] } = .next t := ⟨⟨_, rfl⟩, ⟨_, rfl⟩⟩

/-- A timeout in a read. -/
theorem witness_BusErrorsComeFromBusSteps : (reading 5 [{ timeout := true }]).Inv ∧
    ∃ t, step (reading 5 [{ timeout := true }]) = .next t ∧ (reading 5 [{ timeout := true }]).agenda.head? ≠ some .reset ∧
      t.errCode ≠ (reading 5 [{ timeout := true }]).errCode ∧ t.errCode ∈ [Code.addrNack, .dataNack, .arbLost, .timeout] :=
  ⟨(reading_inv _).2, _, rfl, by decide, by decide, by decide⟩

theorem witness_BusLogGrowsOnlyInBusSteps : ∃ t, step (reading 3 [yes]) = .next t ∧
    (reading 3 [yes]).agenda.head? ≠ some .reset ∧ t.busLog ≠ (reading 3 [yes]).busLog := ⟨_, rfl, by decide, by decide⟩

end Sys2Proof.Tests
end

/-! # Proofs of the family 10_state.md: what a host's turn leaves alone, then R17, R28 and R19 -/

namespace Sys2Proof.Proofs

open Sys2Proof.Machine Sys2Proof.Claims

/-! ### A step, seen from its agent -/

/-- What no read or write of the host touches, and that it neither ends nor replaces a running command. -/
structure HostKeeps (s t : State) : Prop where
  bound : t.bound = s.bound
  sessAddr : t.sessAddr = s.sessAddr
  cfgMirror : t.cfgMirror = s.cfgMirror
  result : t.result = s.result
  resultHeld : t.resultHeld = s.resultHeld
  busLog : t.busLog = s.busLog
  busy : s.busy = true → t.busy = true
  latched : s.busy = true → t.latch = s.latch ∧ t.latchTimeout = s.latchTimeout ∧ t.timeout = s.timeout

/-- A step that is no reset is the controller's, or leaves alone what the host cannot write. -/
theorem step_controller_or_hostKeeps {s t : State} (h : step s = .next t) (hr : s.agenda.head? ≠ some .reset) :
    (ControllersTurn s ∧ ∃ l, controllerStep { s with agenda := l } = .next t) ∨ HostKeeps s t := by
  rcases step_cases h with ⟨s0, hn, hc⟩ | ⟨rest, w, off, r, v, -, -, -, rfl⟩ | ⟨rest, w, off, v, -, -, hb, rfl⟩ |
    ⟨rest, w, off, v, -, -, hb, rfl⟩ | ⟨rest, w, off, r, v, -, -, rfl⟩ | ⟨rest, ha, -⟩
  · obtain ⟨hs0, -, -, hturn⟩ := controllerNext_frame hn
    rw [hs0] at hc
    exact .inl ⟨hturn, _, hc⟩
  · exact .inr ⟨rfl, rfl, rfl, rfl, rfl, rfl, id, fun _ => ⟨rfl, rfl, rfl⟩⟩
  · exact .inr ⟨rfl, rfl, rfl, rfl, rfl, rfl, fun _ => rfl, by simp [hb]⟩
  · exact .inr ⟨rfl, rfl, rfl, rfl, rfl, rfl, id, by simp [hb]⟩
  · exact .inr ⟨rfl, rfl, rfl, rfl, rfl, rfl, id, fun _ => ⟨rfl, rfl, rfl⟩⟩
  · exact absurd (by rw [ha]; rfl) hr

/-- `controllerStep_cases`, from the state the step ended in. -/
theorem controllerStep_next {s t : State} (h : controllerStep s = .next t) :
    (s.phase = .idle ∧ t = s) ∨ (s.phase = .decode ∧ t = s.refuse) ∨
      (s.phase = .decode ∧ ∃ i, decode s.latch = .ok i ∧ Effect i s t) ∨
      (∃ x, s.phase = .bus x ∧ t = busStep x s) := by
  rcases controllerStep_cases s with ⟨hp, hs⟩ | ⟨hp, hs⟩ | ⟨hp, i, u, hd, he, hs⟩ | ⟨x, hp, hs⟩ <;>
    rw [hs, Host.Outcome.next.injEq] at h <;> subst h
  · exact .inl ⟨hp, rfl⟩
  · exact .inr (.inl ⟨hp, rfl⟩)
  · exact .inr (.inr (.inl ⟨hp, i, hd, he⟩))
  · exact .inr (.inr (.inr ⟨x, hp, rfl⟩))

/-- The invariant says nothing of the turns still to come. -/
theorem inv_withAgenda {s : State} (h : s.Inv) (l : List Turn) : ({ s with agenda := l } : State).Inv where
  busy := h.busy
  errCode := h.errCode
  fail := h.fail
  txn x hx := by
    obtain ⟨latched, wf, bound, shape, position, staged⟩ := h.txn x hx
    exact ⟨latched, wf, bound, shape, position, staged⟩

/-! ### The host's accesses of `CMD` and `RESULT` -/

theorem hostWrite_cmd_idle {s : State} (w : Word) (h : s.busy = false) :
    hostWrite 32 0x00 w s = .next (s.issue w) := by
  rw [hostWrite, (accessed_iff 32 0x00 .cmd).2 (by decide)]
  simp [writeReg, writeCmd, h]

theorem hostWrite_cmd_busy {s : State} (w : Word) (h : s.busy = true) :
    hostWrite 32 0x00 w s = .fault .hostOverlap := by
  rw [hostWrite, (accessed_iff 32 0x00 .cmd).2 (by decide)]
  simp [writeReg, writeCmd, h]

theorem hostRead_result_unwritten {s : State} (h : s.resultHeld = false) :
    hostRead 32 0x08 s = .fault .unwrittenRead := by
  rw [hostRead, (accessed_iff 32 0x08 .result).2 (by decide)]
  simp [State.hostValue, h]

/-- Settles O11: the turn is the host's, and `CMD` is written by `State.issue` or not at all. -/
theorem cmdWriteIssuesTheCommand : Obligations.CmdWriteIssuesTheCommand := by
  intro s rest w ha
  rw [step_of_turn ha]
  exact ⟨fun hb => hostWrite_cmd_idle w hb, fun hb => hostWrite_cmd_busy w hb⟩

/-! ### Fields of the configuration word -/

/-- A field's id finds the field's row in the table of R29. -/
theorem fieldTable_find_ofId {f : BitVec 4} {fld : Field} (h : Field.ofId f = some fld) :
    (fieldTable.find? fun r => r.1 == f.toNat) = some (f.toNat, fld.shift, fld.width, fld.mask) := by
  revert f
  cases fld <;> decide

theorem fieldTable_mem_ofId {f : BitVec 4} {fld : Field} (h : Field.ofId f = some fld) :
    (f.toNat, fld.shift, fld.width, fld.mask) ∈ fieldTable :=
  List.mem_of_find?_eq_some (fieldTable_find_ofId h)

theorem ofId_toNat_ne_zero {f : BitVec 4} {fld : Field} (h : Field.ofId f = some fld) (ho : fld ≠ .os) :
    f.toNat ≠ 0 := by
  intro h0
  rw [Field.ofId, h0] at h
  exact ho (Option.some.inj h).symm

/-- Writing a field leaves every bit of a mask that does not meet the field's. -/
theorem encodeConfig_and_of_disjoint {f : Field} {k : Half} (h : f.mask &&& k = 0#16) (w : Half) (v : Byte) :
    encodeConfig w f v &&& k = w &&& k := by
  have hk : k = ~~~f.mask &&& k := by
    apply BitVec.eq_of_getLsbD_eq
    intro i hi
    have hi' : (f.mask.getLsbD i && k.getLsbD i) = false := by rw [← BitVec.getLsbD_and, h, BitVec.getLsbD_zero]
    rw [BitVec.getLsbD_and, BitVec.getLsbD_not]
    cases hm : f.mask.getLsbD i <;> simp_all
  rw [hk, ← BitVec.and_assoc, ← BitVec.and_assoc, encodeConfig_and_not_mask]

/-- `REQ_CHAN` writes `OS` and `MUX` only, bits 15:12 (R114). -/
theorem reqChanWord_keeps_low (w : Half) (sel : Byte) : reqChanWord w sel &&& 0x0FFF#16 = w &&& 0x0FFF#16 := by
  rw [reqChanWord, encodeConfig_and_of_disjoint (by decide), encodeConfig_and_of_disjoint (by decide)]

/-! ### Who writes the mirror -/

/-- A command's `DECODE` step leaves the mirror alone, or is one of R28's three. -/
theorem effect_cfgMirror {i : Instr} {s t : State} (h : Effect i s t) :
    t.cfgMirror = s.cfgMirror ∨ (∃ df a c, i = .bind df a c) ∨
      (∃ f v fld, i = .setField f v ∧ Field.ofId f = some fld ∧ fld ≠ .os ∧
        t.cfgMirror = encodeConfig s.cfgMirror fld v) ∨
      (∃ sel, i = .reqChan sel ∧ t.cfgMirror = reqChanWord s.cfgMirror sel) := by
  cases i <;> simp only [Effect] at h
  case bind df a c => exact .inr (.inl ⟨df, a, c, rfl⟩)
  case setField f v =>
    obtain ⟨-, fld, hf, ho, -, rfl⟩ := h
    exact .inr (.inr (.inl ⟨f, v, fld, rfl, hf, ho, rfl⟩))
  case reqChan sel =>
    obtain ⟨-, -, rfl⟩ := h
    exact .inr (.inr (.inr ⟨sel, rfl, rfl⟩))
  case busWrite => obtain ⟨-, -, -, rfl⟩ := h; exact .inl rfl
  case busRead => obtain ⟨-, -, -, rfl⟩ := h; exact .inl rfl
  case encConfig => obtain ⟨_, -, -, rfl⟩ := h; exact .inl rfl
  case decConv => subst h; exact .inl rfl
  case decStatus => subst h; exact .inl rfl
  case encThresh => subst h; exact .inl rfl
  case isReady => obtain ⟨-, rfl⟩ := h; exact .inl rfl
  case readConv => obtain ⟨-, rfl⟩ := h; exact .inl rfl
  case setThresh => obtain ⟨-, -, rfl⟩ := h; exact .inl rfl

/-- A controller step that changes the mirror is the `DECODE` step of a command with an effect. -/
theorem controllerStep_cfgMirror {s t : State} (h : controllerStep s = .next t) (hm : t.cfgMirror ≠ s.cfgMirror) :
    s.phase = .decode ∧ ∃ i, decode s.latch = .ok i ∧ Effect i s t := by
  rcases controllerStep_next h with ⟨-, rfl⟩ | ⟨-, rfl⟩ | hd | ⟨x, -, rfl⟩
  · exact absurd rfl hm
  · exact absurd rfl hm
  · exact hd
  · obtain ⟨-, -, -, hx, -⟩ := busStep_frame x s
    exact absurd hx hm

/-- Settles O53: the host and the bus steps leave the mirror alone, and so does every `DECODE` step but three. -/
theorem onlyThreeCommandsWriteTheMirror : Obligations.OnlyThreeCommandsWriteTheMirror := by
  intro s t h hr hm
  rcases step_controller_or_hostKeeps h hr with ⟨hturn, l, hc⟩ | hk
  · obtain ⟨hp, i, hd, he⟩ := controllerStep_cfgMirror hc hm
    refine ⟨hturn, hp, ?_⟩
    rcases effect_cfgMirror he with hsame | ⟨df, a, c, rfl⟩ | ⟨f, v, fld, rfl, hf, ho, ht⟩ | ⟨sel, rfl, ht⟩
    · exact absurd hsame hm
    · exact .inl ⟨df, a, c, hd⟩
    · exact .inr (.inl ⟨f, v, hd, _, fieldTable_mem_ofId hf, ofId_toNat_ne_zero hf ho, rfl, by
        rw [ht, encodeConfig_and_not_mask]⟩)
    · exact .inr (.inr ⟨sel, hd, by rw [ht, reqChanWord_keeps_low]⟩)
  · exact absurd hk.cfgMirror hm

/-! ### The results of R19 -/

theorem conversionWord_hi_lo (b : Half) : conversionWord (hiByte b) (loByte b) = BitVec.ofInt 32 b.toInt := by
  rw [conversionWord_eq_ofInt, join16_hi_lo]

theorem statusResult_hi_lo (b : Half) :
    statusResult (hiByte b) (loByte b) = if b.toNat < 2 ^ 15 then 1#32 else 0#32 := by
  have hsplit := join16_toNat (hiByte b) (loByte b)
  rw [join16_hi_lo] at hsplit
  have hlo : (loByte b).toNat < 256 := (loByte b).isLt
  have hiff : (hiByte b).toNat < 128 ↔ b.toNat < 2 ^ 15 := by omega
  rw [statusResult_eq, if_congr hiff rfl rfl]

theorem resultOf_encConfig {f : BitVec 4} {fld : Field} {v : Byte} (sc : Scratch) (base : Half)
    (hf : Field.ofId f = some fld) (hv : fld.fits v = true) :
    resultOf sc (.encConfig f v base) = some ((encodeConfig base fld v).setWidth 32) := by
  rw [resultOf, fieldTable_find_ofId hf, encodeConfig_of_fits base hv]
  rfl

/-- What a transaction writes is its command's result. -/
theorem txnResult_some {cmd : Instr} {sc : Scratch} {v : Word} (h : txnResult cmd sc = some v) :
    cmd.producesResult = true ∧ resultOf sc cmd = some v := by
  cases cmd <;> simp only [txnResult, reduceCtorEq] at h
  case busRead reg n => exact ⟨rfl, h⟩
  case isReady => exact ⟨rfl, by rw [← h, statusResult_eq]; rfl⟩
  case readConv => exact ⟨rfl, by rw [← h, conversionWord_eq_ofInt]; rfl⟩

/-- A transaction that writes no result belongs to a command without one. -/
theorem txnResult_none {cmd : Instr} {sc : Scratch} (ht : cmd.transaction ≠ none) (h : txnResult cmd sc = none) :
    cmd.producesResult = false := by
  cases cmd <;> simp_all [txnResult, Instr.transaction, Instr.producesResult]

/-! ### When `RESULT` is written -/

/-- A command with a result completes with `OK` in the step from `s` to `t`. -/
def Delivers (s t : State) : Prop :=
  s.busy = true ∧ t.busy = false ∧ t.errCode = .ok ∧ ∃ i, decode s.latch = .ok i ∧ i.producesResult = true

/-- R19 for the step from `s` to `t`: a step that delivers a result writes it, and no other step touches `RESULT`. -/
def ResultRule (s t : State) : Prop :=
  (Delivers s t → t.resultHeld = true ∧ ∃ i, decode s.latch = .ok i ∧ resultOf s.scratch i = some t.result) ∧
    (¬ Delivers s t → t.result = s.result ∧ t.resultHeld = s.resultHeld)

section

variable {s t : State} {i : Instr}

theorem not_delivers_of_noResult (hd : decode s.latch = .ok i) (hi : i.producesResult = false) : ¬ Delivers s t := by
  rintro ⟨-, -, -, j, hj, hp⟩
  obtain rfl : i = j := Except.ok.inj (hd.symm.trans hj)
  simp [hi] at hp

theorem resultRule_of_kept (hd : ¬ Delivers s t) (hr : t.result = s.result) (hh : t.resultHeld = s.resultHeld) :
    ResultRule s t := ⟨fun h => absurd h hd, fun _ => ⟨hr, hh⟩⟩

/-- The command is still running after the step. -/
theorem resultRule_of_running (hb : t.busy = true) (hr : t.result = s.result) (hh : t.resultHeld = s.resultHeld) :
    ResultRule s t := resultRule_of_kept (fun ⟨_, hf, _⟩ => by simp [hb] at hf) hr hh

/-- The command has failed. -/
theorem resultRule_of_failed (he : t.errCode ≠ .ok) (hr : t.result = s.result) (hh : t.resultHeld = s.resultHeld) :
    ResultRule s t := resultRule_of_kept (fun ⟨_, _, hok, _⟩ => he hok) hr hh

theorem resultRule_of_written (hd : decode s.latch = .ok i) (hp : i.producesResult = true) (hb : s.busy = true)
    (hf : t.busy = false) (hok : t.errCode = .ok) (hh : t.resultHeld = true)
    (hr : resultOf s.scratch i = some t.result) : ResultRule s t :=
  ⟨fun _ => ⟨hh, i, hd, hr⟩, fun hn => absurd ⟨hb, hf, hok, i, hd, hp⟩ hn⟩

/-- The `DECODE` step of a command that is not refused. -/
theorem effect_resultRule (hb : s.busy = true) (hd : decode s.latch = .ok i) (h : Effect i s t) : ResultRule s t := by
  cases i <;> simp only [Effect] at h
  case encConfig f v base =>
    obtain ⟨fld, hf, hv, rfl⟩ := h
    exact resultRule_of_written hd rfl hb rfl rfl rfl (resultOf_encConfig _ base hf hv)
  case decConv b =>
    subst h
    exact resultRule_of_written hd rfl hb rfl rfl rfl (congrArg some (conversionWord_hi_lo b).symm)
  case decStatus b =>
    subst h
    exact resultRule_of_written hd rfl hb rfl rfl rfl (congrArg some (statusResult_hi_lo b).symm)
  case encThresh v =>
    subst h
    exact resultRule_of_written hd rfl hb rfl rfl rfl (congrArg some (BitVec.ofNat_toNat 32 v))
  case bind =>
    obtain ⟨-, -, rfl⟩ := h
    exact resultRule_of_kept (not_delivers_of_noResult hd rfl) rfl rfl
  case setField =>
    obtain ⟨-, _, -, -, -, rfl⟩ := h
    exact resultRule_of_kept (not_delivers_of_noResult hd rfl) rfl rfl
  case busWrite => obtain ⟨-, -, -, rfl⟩ := h; exact resultRule_of_running hb rfl rfl
  case busRead => obtain ⟨-, -, -, rfl⟩ := h; exact resultRule_of_running hb rfl rfl
  case reqChan => obtain ⟨-, -, rfl⟩ := h; exact resultRule_of_running hb rfl rfl
  case isReady => obtain ⟨-, rfl⟩ := h; exact resultRule_of_running hb rfl rfl
  case readConv => obtain ⟨-, rfl⟩ := h; exact resultRule_of_running hb rfl rfl
  case setThresh => obtain ⟨-, -, rfl⟩ := h; exact resultRule_of_running hb rfl rfl

/-- A bus step writes `RESULT` in its final stop only. -/
theorem busStep_resultRule {x : Txn} (hb : s.busy = true) (hd : decode s.latch = .ok x.cmd)
    (hx : x.cmd.transaction ≠ none) : ResultRule s (busStep x s) := by
  rcases busStep_cases x s with ⟨c, -, h⟩ | ⟨-, c, -, h⟩ | ⟨-, -, -, h⟩ | ⟨-, op, rest, e, fl, sc, -, -, -, h⟩ <;>
    rw [h]
  · exact resultRule_of_failed c.code_ne_ok rfl rfl
  · exact resultRule_of_failed c.code_ne_ok rfl rfl
  · cases hres : txnResult x.cmd s.scratch with
    | none => exact resultRule_of_kept (not_delivers_of_noResult hd (txnResult_none hx hres)) rfl rfl
    | some v =>
      obtain ⟨hp, hv⟩ := txnResult_some hres
      exact resultRule_of_written hd hp hb rfl rfl rfl hv
  · exact resultRule_of_running hb rfl rfl

theorem controllerStep_resultRule (hi : s.Inv) (h : controllerStep s = .next t) : ResultRule s t := by
  rcases controllerStep_next h with ⟨hp, rfl⟩ | ⟨-, rfl⟩ | ⟨hp, i, hd, he⟩ | ⟨x, hp, rfl⟩
  · exact resultRule_of_kept (fun ⟨hb, _⟩ => hi.busy.1 hb hp) rfl rfl
  · exact resultRule_of_failed (by simp [State.refuse_eq]) rfl rfl
  · exact effect_resultRule (hi.busy.2 (by simp [hp])) hd he
  · have hx := hi.txn x hp
    exact busStep_resultRule (hi.busy.2 (by simp [hp])) hx.latched (by simp [hx.shape])

theorem hostKeeps_resultRule (h : HostKeeps s t) : ResultRule s t :=
  resultRule_of_kept (fun ⟨hb, hf, _⟩ => by simp [h.busy hb] at hf) h.result h.resultHeld

end

/-- Settles O54: the host writes no result, a `DECODE` step and a bus step follow R19, and the read of an unwritten
`RESULT` faults. -/
theorem resultIsWrittenOnSuccessOnly : Obligations.ResultIsWrittenOnSuccessOnly := by
  refine ⟨fun s t hi h hr => ?_, fun s rest hh ha => ?_⟩
  · rcases step_controller_or_hostKeeps h hr with ⟨-, l, hc⟩ | hk
    · have hrule := controllerStep_resultRule (inv_withAgenda hi l) hc
      exact hrule
    · exact hostKeeps_resultRule hk
  · rw [step_of_turn ha]
    exact hostRead_result_unwritten hh

end Sys2Proof.Proofs

/-! # Proofs of the family 30_encoding.md: which words are commands, then R70 and R71 -/

namespace Sys2Proof.Proofs

open Sys2Proof.Machine Sys2Proof.Claims

/-! ### The fields of a masked word -/

theorem layoutZ_ext {x y : Word} : x = y ↔ bitsAt x 28 4 = bitsAt y 28 4 ∧ bitsAt x 0 28 = bitsAt y 0 28 := by
  refine ⟨fun h => by simp [h], fun ⟨hop, hrest⟩ => ?_⟩
  rw [← layoutZ_eta x, ← layoutZ_eta y, hop, hrest]

/-- A field that the mask keeps. -/
theorem bitsAt_and_of_ones {m : Word} {lo len : Nat} (h : bitsAt m lo len = BitVec.allOnes len) (w : Word) :
    bitsAt (w &&& m) lo len = bitsAt w lo len := by
  rw [bitsAt_and, h, BitVec.and_allOnes]

/-- A field that the mask clears. -/
theorem bitsAt_and_of_zeros {m : Word} {lo len : Nat} (h : bitsAt m lo len = 0#len) (w : Word) :
    bitsAt (w &&& m) lo len = 0#len := by
  rw [bitsAt_and, h, BitVec.and_zero]

theorem opcode_eq_iff {x y : Word} : bitsAt x 28 4 = bitsAt y 28 4 ↔ x.toNat / 2 ^ 28 = y.toNat / 2 ^ 28 := by
  rw [← BitVec.toNat_inj, bitsAt_opcode_toNat, bitsAt_opcode_toNat]

/-! ### Which words are commands -/

@[simp] theorem unlessReserved_eq_ok {len : Nat} {z : BitVec len} {i j : Instr} :
    unlessReserved z i = .ok j ↔ z = 0#len ∧ i = j := by
  unfold unlessReserved
  split <;> simp [*]

@[simp] theorem unlessReserved2_eq_ok {m n : Nat} {z₁ : BitVec m} {z₂ : BitVec n} {i j : Instr} :
    unlessReserved2 z₁ z₂ i = .ok j ↔ (z₁ = 0#m ∧ z₂ = 0#n) ∧ i = j := by
  unfold unlessReserved2
  split <;> simp [*]

/-- R71: with the opcode of a row, the words the decoder takes are those that match the row. -/
theorem decode_ok_iff_accepts {w : Word} : ∀ r ∈ opcodeMap, bitsAt w 28 4 = bitsAt r.pattern 28 4 →
    ((∃ i, decode w = .ok i) ↔ r.accepts w) := by
  simp only [opcodeMap, List.forall_mem_cons, OpcodeRow.accepts]
  refine ⟨?busWrite, ?busRead, ?encConfig, ?decConv, ?decStatus, ?encThresh, ?bind, ?setField, ?reqChan, ?isReady,
    ?readConv, ?setThresh, by simp⟩ <;> intro hop
  case' busWrite | busRead => rw [layoutT_ext]
  case' encConfig | setField | reqChan | setThresh => rw [layoutK_ext]
  case' decConv | decStatus | encThresh => rw [layoutB_ext]
  case' bind => rw [layoutN_ext]
  case' isReady | readConv => rw [layoutZ_ext]
  all_goals
    simp (disch := decide) only [decode, hop, bitsAt_and_of_ones, bitsAt_and_of_zeros, true_and]
    simp [bitsAt]

/-- R70: an opcode without a row. -/
theorem decode_reservedOpcode {w : Word} (h : w.toNat / 2 ^ 28 = 0x0 ∨ w.toNat / 2 ^ 28 = 0x7 ∨
    w.toNat / 2 ^ 28 = 0xE ∨ w.toNat / 2 ^ 28 = 0xF) : decode w = .error .reservedOpcode := by
  rw [← bitsAt_opcode_toNat] at h
  rcases h with h | h | h | h <;> simp [decode, h]

/-- R69 and R70 leave no opcode out. -/
theorem opcode_reserved_or_row : ∀ n < 16, (n = 0x0 ∨ n = 0x7 ∨ n = 0xE ∨ n = 0xF) ∨
    ∃ r ∈ opcodeMap, r.pattern.toNat / 2 ^ 28 = n := by decide

theorem reservedWord_iff (w : Word) : reservedWord w ↔ ¬ ∃ i, decode w = .ok i := by
  constructor
  · rintro (hop | ⟨r, hr, hop, hbits⟩)
    · simp [decode_reservedOpcode hop]
    · rwa [decode_ok_iff_accepts r hr (opcode_eq_iff.2 hop.symm)]
  · intro hd
    rcases opcode_reserved_or_row (w.toNat / 2 ^ 28) (by omega) with hop | ⟨r, hr, hop⟩
    · exact .inl hop
    · exact .inr ⟨r, hr, hop, by rwa [← decode_ok_iff_accepts r hr (opcode_eq_iff.2 hop.symm)]⟩

/-- Settles O3: the reserved words are the ones the decoder rejects, and the `DECODE` step refuses a rejected word. -/
theorem reservedWordsAreRefused : Obligations.ReservedWordsAreRefused := by
  refine ⟨reservedWord_iff, fun s s0 hn hp hw => ?_⟩
  cases hd : decode s0.latch with
  | ok i => exact absurd ⟨i, hd⟩ ((reservedWord_iff _).1 hw)
  | error e =>
    rw [step_of_controllerNext hn, controllerStep_rejected hp hd]
    rfl

end Sys2Proof.Proofs

/-! # Proofs of the family 41_codec.md: R106, then what a codec command does in any state and R111 -/

namespace Sys2Proof.Proofs

open Sys2Proof.Machine Sys2Proof.Claims

/-- Settles O18: the top bit of a byte is 0 exactly when the byte is below 128. -/
theorem statusReadsOneBit : Obligations.StatusReadsOneBit := decodeStatus_iff

/-- R111: whether a codec command is refused, and the result it writes when it is not, are the same in every state. -/
theorem exec_codec : ∀ {i : Instr}, i.isCodec = true →
    (∀ s, exec i s = .next s.refuse) ∨ ∃ v, ∀ s, exec i s = .next ((s.setResult v).complete .ok)
  | .encConfig f v base, _ => by
    cases hf : Field.ofId f with
    | none => exact .inl fun s => by simp [exec, execEncConfig, hf]
    | some fld =>
      cases hv : fld.fits v with
      | false => exact .inl fun s => by simp [exec, execEncConfig, hf, hv]
      | true => exact .inr ⟨(encodeConfig base fld v).setWidth 32, fun s => by simp [exec, execEncConfig, hf, hv]⟩
  | .decConv _, _ => .inr ⟨_, fun _ => rfl⟩
  | .decStatus _, _ => .inr ⟨_, fun _ => rfl⟩
  | .encThresh _, _ => .inr ⟨_, fun _ => rfl⟩

/-- Settles O21: both steps run the latched command, which is refused in both states or writes one result in both. -/
theorem codecHasNoState : Obligations.CodecHasNoState := by
  intro i hi s₁ s₂ u₁ u₂ hn₁ hn₂ hp₁ hp₂ hd hl
  rw [step_of_controllerNext hn₁, step_of_controllerNext hn₂, controllerStep_decode hp₁ hd,
    controllerStep_decode hp₂ (hl ▸ hd)]
  rcases exec_codec hi with hrefuse | ⟨v, hresult⟩
  · exact ⟨_, _, hrefuse u₁, hrefuse u₂, rfl, rfl, by simp [State.refuse_eq], rfl⟩
  · exact ⟨_, _, hresult u₁, hresult u₂, rfl, rfl, fun _ => ⟨rfl, rfl, rfl⟩, rfl⟩

end Sys2Proof.Proofs

/-! # Proofs of the family 60_exceptions.md: R128, R131, the causes of R124 and the faults of R135 -/

namespace Sys2Proof.Proofs

open Sys2Proof.Machine Sys2Proof.Claims

/-! ### Refusals and completions -/

/-- A command that is not refused does not end in `INVALID_ARGUMENT`. -/
theorem effect_not_invalidArgument {i : Instr} {s t : State} (h : Effect i s t) :
    ¬ (t.errCode = .invalidArgument ∧ t.phase = .idle) := by
  rintro ⟨he, hp⟩
  rcases effect_ends h with ⟨hok, -⟩ | ⟨-, -, -, x, hbus, -⟩
  · simp [hok] at he
  · simp [hbus] at hp

/-- Settles O23: of what a `DECODE` step can do, only `State.refuse` ends in `INVALID_ARGUMENT`. -/
theorem refusedCommandChangesOnlyStatus : Obligations.RefusedCommandChangesOnlyStatus := by
  intro s s0 t hn hp h he hi
  rw [step_of_controllerNext hn] at h
  rcases controllerStep_next h with ⟨hidle, -⟩ | ⟨-, rfl⟩ | ⟨-, i, -, heff⟩ | ⟨x, hbus, -⟩
  · simp [hp] at hidle
  · rfl
  · exact absurd ⟨he, hi⟩ (effect_not_invalidArgument heff)
  · simp [hp] at hbus

theorem exec_answers_next (i : Instr) (s : State) : ∃ t, exec i s = .next t := by
  rcases exec_cases s i with h | ⟨t, h, -⟩
  · exact ⟨_, h⟩
  · exact ⟨t, h⟩

/-- The bus step that ends a transaction clears `BUSY`. -/
theorem busStep_idle_not_busy {x : Txn} {s : State} (h : (busStep x s).phase = .idle) :
    (busStep x s).busy = false := by
  rcases busStep_cases x s with ⟨c, -, hs⟩ | ⟨-, c, -, hs⟩ | ⟨-, -, -, hs⟩ | ⟨-, op, rest, e, fl, sc, -, -, -, hs⟩ <;>
    rw [hs] at h ⊢
  · rfl
  · rfl
  · rfl
  · cases h

/-- A controller step that completes a command clears `BUSY`, in every state. -/
theorem controllerStep_completes_not_busy {s t : State} (h : controllerStep s = .next t) (hs : s.phase ≠ .idle)
    (ht : t.phase = .idle) : t.busy = false := by
  rcases controllerStep_next h with ⟨hidle, -⟩ | ⟨-, rfl⟩ | ⟨-, i, -, heff⟩ | ⟨x, -, rfl⟩
  · exact absurd hidle hs
  · rfl
  · rcases effect_ends heff with ⟨-, hbusy, -⟩ | ⟨-, -, -, x, hbus, -⟩
    · exact hbusy
    · simp [hbus] at ht
  · exact busStep_idle_not_busy ht

/-- Settles O25: a completion leaves `BUSY` clear, and that is all a `CMD` write asks for. -/
theorem noCommandIsFatal : Obligations.NoCommandIsFatal := by
  refine ⟨exec_answers_next, fun s s0 t rest w hn hs h ht => ?_⟩
  rw [step_of_controllerNext hn] at h
  have hbusy := controllerStep_completes_not_busy h hs ht
  rw [step_of_turn rfl]
  exact ⟨_, hostWrite_cmd_idle w hbusy, rfl, rfl⟩

/-! ### The causes of `INVALID_ARGUMENT` -/

theorem ofId_eq_none_iff {f : BitVec 4} : Field.ofId f = none ↔ 8 < f.toNat := by
  revert f
  decide

theorem ofId_eq_os_iff {f : BitVec 4} : Field.ofId f = some .os ↔ f.toNat = 0 := by
  revert f
  decide

/-- A row of the table of R29 is its id's field. -/
theorem ofId_of_mem_fieldTable : ∀ f : BitVec 4, ∀ r ∈ fieldTable, r.1 = f.toNat →
    ∃ fld, Field.ofId f = some fld ∧ fld.width = r.2.2.1 := by
  have h : ∀ f : BitVec 4, ∀ r ∈ fieldTable, r.1 = f.toNat →
      (Field.ofId f).map Field.width = some r.2.2.1 := by decide
  simpa only [Option.map_eq_some_iff] using h

/-- The width check of R100, in the terms of the table of R29. -/
theorem fits_eq_false_iff {f : BitVec 4} {fld : Field} (h : Field.ofId f = some fld) (v : Byte) :
    fld.fits v = false ↔ ∃ r ∈ fieldTable, r.1 = f.toNat ∧ 2 ^ r.2.2.1 ≤ v.toNat := by
  rw [← Bool.not_eq_true, Field.fits_iff, Nat.not_lt]
  constructor
  · exact fun hv => ⟨_, fieldTable_mem_ofId h, rfl, hv⟩
  · rintro ⟨r, hr, hid, hv⟩
    obtain ⟨g, hg, hw⟩ := ofId_of_mem_fieldTable f r hr hid
    obtain rfl : fld = g := Option.some.inj (h.symm.trans hg)
    rwa [hw]

/-- R124: a `DECODE` step refuses the command for one of the listed causes, or the command has its effect. -/
theorem exec_refused_cause_or_effect (i : Instr) (s : State) :
    exec i s = .next s.refuse ∧ invalidCause s.bound i ∨ ∃ t, exec i s = .next t ∧ Effect i s t := by
  cases i with
  | busWrite reg n d => exact execBusWrite_cases s reg n d
  | busRead reg n => exact execBusRead_cases s reg n
  | encConfig f v base =>
    refine (execEncConfig_cases s f v base).imp_left (And.imp_right ?_)
    rintro (hf | ⟨fld, hf, hv⟩)
    · exact .inl (ofId_eq_none_iff.1 hf)
    · exact .inr ((fits_eq_false_iff hf v).1 hv)
  | decConv b => exact .inr ⟨_, rfl, rfl⟩
  | decStatus b => exact .inr ⟨_, rfl, rfl⟩
  | encThresh v => exact .inr ⟨_, by rw [exec, execEncThresh, join16_hi_lo], rfl⟩
  | bind df a c => exact execBind_cases s df a c
  | setField f v =>
    refine (execSetField_cases s f v).imp_left (And.imp_right ?_)
    rintro (hb | hf | ⟨fld, hf, rfl | hv⟩)
    · exact .inl hb
    · exact .inr (.inl (ofId_eq_none_iff.1 hf))
    · exact .inr (.inr (.inl (ofId_eq_os_iff.1 hf)))
    · exact .inr (.inr (.inr ((fits_eq_false_iff hf v).1 hv)))
  | reqChan sel => exact execReqChan_cases s sel
  | isReady => exact execIsReady_cases s
  | readConv => exact execReadConv_cases s
  | setThresh w v => exact (execSetThresh_cases s w v).imp_left (And.imp_right (Or.imp_right not_or.1))

/-- A command that has its effect has passed every check of R124. -/
theorem effect_no_invalidCause {i : Instr} {s t : State} (h : Effect i s t) : ¬ invalidCause s.bound i := by
  cases i <;> simp only [Effect] at h
  case busWrite => obtain ⟨hb, hreg, hn, -⟩ := h; simp [invalidCause, hb, hreg, hn]
  case busRead => obtain ⟨hb, hreg, hn, -⟩ := h; simp [invalidCause, hb, hreg, hn]
  case encConfig f v _ =>
    obtain ⟨fld, hf, hv, -⟩ := h
    rw [invalidCause, ← fits_eq_false_iff hf, gt_iff_lt, ← ofId_eq_none_iff]
    simp [hf, hv]
  case decConv => exact not_false
  case decStatus => exact not_false
  case encThresh => exact not_false
  case bind => obtain ⟨hb, hc, -⟩ := h; simpa [invalidCause, hb] using hc
  case setField f v =>
    obtain ⟨hb, fld, hf, ho, hv, -⟩ := h
    rw [invalidCause, ← fits_eq_false_iff hf, gt_iff_lt, ← ofId_eq_none_iff, ← ofId_eq_os_iff]
    simp [hb, hf, ho, hv]
  case reqChan => obtain ⟨hb, hsel, -⟩ := h; simp [invalidCause, hb, hsel]
  case isReady => obtain ⟨hb, -⟩ := h; simp [invalidCause, hb]
  case readConv => obtain ⟨hb, -⟩ := h; simp [invalidCause, hb]
  case setThresh => obtain ⟨hb, hw, -⟩ := h; simpa [invalidCause, hb, ← or_iff_not_imp_left] using hw

/-- Settles O22: a rejected word is a reserved one, and a decoded command is refused for a listed cause or passes them
all. -/
theorem invalidArgumentHasExactlyItsCauses : Obligations.InvalidArgumentHasExactlyItsCauses := by
  intro s s0 hn hp
  rw [step_of_controllerNext hn]
  cases hd : decode s0.latch with
  | error e =>
    have hw : reservedWord s0.latch := (reservedWord_iff _).2 (by simp [hd])
    exact iff_of_true ⟨_, controllerStep_rejected hp hd, rfl, rfl⟩ (.inl hw)
  | ok i =>
    have hw : ¬ reservedWord s0.latch := fun h => (reservedWord_iff _).1 h ⟨i, hd⟩
    rw [controllerStep_decode hp hd]
    rcases exec_refused_cause_or_effect i s0 with ⟨hx, hc⟩ | ⟨t, hx, he⟩
    · exact iff_of_true ⟨_, hx, rfl, rfl⟩ (.inr ⟨i, rfl, hc⟩)
    · refine iff_of_false ?_ ?_
      · rintro ⟨u, hu, hend⟩
        obtain rfl : t = u := Host.Outcome.next.inj (hx.symm.trans hu)
        exact effect_not_invalidArgument he hend
      · rintro (h | ⟨j, hj, hc⟩)
        · exact hw h
        · obtain rfl : i = j := Except.ok.inj hj
          exact effect_no_invalidCause he hc

/-! ### The faults of the host's accesses -/

theorem accessed_eq_none_iff {w off : Nat} : HostReg.accessed w off = none ↔ ¬ (w = 32 ∧ off ∈ offsets) := by
  have hlisted : ∀ off ∈ offsets, HostReg.accessed 32 off ≠ none := by decide
  constructor
  · rintro h ⟨rfl, ho⟩
    exact hlisted off ho h
  · intro h
    by_contra hne
    obtain ⟨r, hr⟩ := Option.ne_none_iff_exists'.1 hne
    obtain ⟨hw, hoff⟩ := (accessed_iff w off r).1 hr
    refine h ⟨hw, ?_⟩
    simp only [offsets, List.mem_cons]
    tauto

/-- A listed register has no value in the two cases of R19 to R21. -/
theorem hostValue_eq_none_iff {w off : Nat} {r : HostReg} (s : State) (h : HostReg.accessed w off = some r) :
    s.hostValue r = none ↔
      (off = 0x08 ∧ s.resultHeld = false) ∨ ((off = 0x0C ∨ off = 0x10) ∧ s.bound = false) := by
  obtain ⟨-, h⟩ := (accessed_iff w off r).1 h
  rcases h with ⟨rfl, rfl⟩ | ⟨rfl, rfl⟩ | ⟨rfl, rfl⟩ | ⟨rfl, rfl⟩ | ⟨rfl, rfl⟩ | ⟨rfl, rfl⟩ <;>
    simp [State.hostValue]

/-- R147 and R16: a write of a register is answered unless it is one of `CMD` or `TIMEOUT` while busy. -/
theorem writeReg_cases (r : HostReg) (v : Word) (s : State) :
    (∃ t, writeReg r v s = .next t) ∨
      (r = .cmd ∨ r = .timeout) ∧ s.busy = true ∧ writeReg r v s = .fault .hostOverlap := by
  cases r with
  | cmd => cases hb : s.busy <;> simp [writeReg, writeCmd, hb]
  | timeout => cases hb : s.busy <;> simp [writeReg, writeTimeout, hb]
  | status => exact .inl ⟨s, rfl⟩
  | result => exact .inl ⟨s, rfl⟩
  | cfgMirror => exact .inl ⟨s, rfl⟩
  | busAddr => exact .inl ⟨s, rfl⟩

theorem controllerStep_answers_next (s : State) : ∃ t, controllerStep s = .next t := by
  rcases controllerStep_cases s with ⟨-, h⟩ | ⟨-, h⟩ | ⟨-, i, t, -, -, h⟩ | ⟨x, -, h⟩ <;> exact ⟨_, h⟩

/-- The three host behaviours of R135, each with the fault it raises. -/
inductive HostFault (s : State) : Fault → Prop where
  | badRead {w off : Nat} {rest : List Turn} (ha : s.agenda = .hostRead w off :: rest)
      (hbad : ¬ (w = 32 ∧ off ∈ offsets)) : HostFault s .hostBadAccess
  | badWrite {w off : Nat} {v : Word} {rest : List Turn} (ha : s.agenda = .hostWrite w off v :: rest)
      (hbad : ¬ (w = 32 ∧ off ∈ offsets)) : HostFault s .hostBadAccess
  | unwritten {off : Nat} {rest : List Turn} (ha : s.agenda = .hostRead 32 off :: rest)
      (hv : (off = 0x08 ∧ s.resultHeld = false) ∨ ((off = 0x0C ∨ off = 0x10) ∧ s.bound = false)) :
      HostFault s .unwrittenRead
  | overlap {off : Nat} {v : Word} {rest : List Turn} (ha : s.agenda = .hostWrite 32 off v :: rest)
      (ho : off = 0x00 ∨ off = 0x14) (hb : s.busy = true) : HostFault s .hostOverlap

/-- Every step answers a next state, or faults for one of the three host behaviours. -/
theorem step_next_or_hostFault (s : State) :
    (∃ t, step s = .next t) ∨ ∃ f, HostFault s f ∧ step s = .fault f := by
  cases ha : s.agenda with
  | nil => rw [step_of_nil ha]; exact .inl (controllerStep_answers_next s)
  | cons turn rest =>
    rw [step_of_turn ha]
    cases turn with
    | controller => exact .inl (controllerStep_answers_next _)
    | reset => exact .inl ⟨_, rfl⟩
    | hostRead w off =>
      rw [runTurn, hostRead]
      cases hr : HostReg.accessed w off with
      | none => exact .inr ⟨_, .badRead ha (accessed_eq_none_iff.1 hr), rfl⟩
      | some r =>
        obtain ⟨rfl, -⟩ := (accessed_iff w off r).1 hr
        cases hv : ({ s with agenda := rest } : State).hostValue r with
        | none => exact .inr ⟨_, .unwritten ha ((hostValue_eq_none_iff _ hr).1 hv), by simp [hv]⟩
        | some v => exact .inl (by simp [hv])
    | hostWrite w off v =>
      rw [runTurn, hostWrite]
      cases hr : HostReg.accessed w off with
      | none => exact .inr ⟨_, .badWrite ha (accessed_eq_none_iff.1 hr), rfl⟩
      | some r =>
        obtain ⟨rfl, hoff⟩ := (accessed_iff w off r).1 hr
        rcases writeReg_cases r v { s with agenda := rest } with hnext | ⟨hreg, hb, hfault⟩
        · exact .inl hnext
        · refine .inr ⟨_, .overlap ha ?_ hb, hfault⟩
          rcases hreg with rfl | rfl
          · exact .inl (by simpa using hoff)
          · exact .inr (by simpa using hoff)

theorem hostWrite_timeout_busy {s : State} (v : Word) (h : s.busy = true) :
    hostWrite 32 0x14 v s = .fault .hostOverlap := by
  rw [hostWrite, (accessed_iff 32 0x14 .timeout).2 (by decide)]
  simp [writeReg, writeTimeout, h]

theorem step_of_hostFault {s : State} {f : Fault} (h : HostFault s f) : step s = .fault f := by
  cases h with
  | badRead ha hbad => rw [step_of_turn ha, runTurn, hostRead, accessed_eq_none_iff.2 hbad]
  | badWrite ha hbad => rw [step_of_turn ha, runTurn, hostWrite, accessed_eq_none_iff.2 hbad]
  | @unwritten off rest ha hv =>
    have hoff : off ∈ offsets := by
      rcases hv with ⟨rfl, -⟩ | ⟨rfl | rfl, -⟩ <;> decide
    obtain ⟨r, hr⟩ := Option.ne_none_iff_exists'.1 (mt accessed_eq_none_iff.1 (not_not_intro ⟨rfl, hoff⟩))
    have hnone := (hostValue_eq_none_iff { s with agenda := rest } hr).2 hv
    rw [step_of_turn ha, runTurn, hostRead, hr]
    simp [hnone]
  | @overlap off v rest ha ho hb =>
    rw [step_of_turn ha, runTurn]
    rcases ho with rfl | rfl
    · exact hostWrite_cmd_busy v hb
    · exact hostWrite_timeout_busy v hb

theorem step_eq_fault_iff {s : State} {f : Fault} : step s = .fault f ↔ HostFault s f := by
  refine ⟨fun h => ?_, step_of_hostFault⟩
  rcases step_next_or_hostFault s with ⟨t, ht⟩ | ⟨g, hg, hs⟩
  · simp [ht] at h
  · obtain rfl : g = f := Host.Outcome.fault.inj (hs.symm.trans h)
    exact hg

theorem step_ne_refused (s : State) (r : Refusal) : step s ≠ .refused r := by
  rcases step_next_or_hostFault s with ⟨t, h⟩ | ⟨f, -, h⟩ <;> simp [h]

/-- Settles O13: a step faults exactly by one of the three host behaviours. -/
theorem onlyTheThreeHostFaults : Obligations.OnlyTheThreeHostFaults := by
  refine fun s => ⟨?_, ?_, ?_, step_ne_refused s⟩ <;> rw [step_eq_fault_iff]
  · constructor
    · intro h
      cases h with
      | badRead ha hbad => exact ⟨_, _, _, .inl ha, hbad⟩
      | badWrite ha hbad => exact ⟨_, _, _, .inr ⟨_, ha⟩, hbad⟩
    · rintro ⟨rest, w, off, ha | ⟨v, ha⟩, hbad⟩
      · exact .badRead ha hbad
      · exact .badWrite ha hbad
  · constructor
    · intro h
      cases h with
      | unwritten ha hv => exact ⟨_, _, ha, hv⟩
    · rintro ⟨rest, off, ha, hv⟩
      exact .unwritten ha hv
  · constructor
    · intro h
      cases h with
      | overlap ha ho hb => exact ⟨_, _, _, ha, ho, hb⟩
    · rintro ⟨rest, off, v, ha, ho, hb⟩
      exact .overlap ha ho hb

end Sys2Proof.Proofs

/-! # Proofs of the family 70_reset_and_hazards.md: who writes the session, then R141 and R147 -/

namespace Sys2Proof.Proofs

open Sys2Proof.Machine Sys2Proof.Claims

/-- R26: a controller step leaves the session alone, or is the `DECODE` step of a `BIND` that makes it. -/
theorem controllerStep_session {s t : State} (h : controllerStep s = .next t) :
    (t.bound = s.bound ∧ t.sessAddr = s.sessAddr) ∨
      (s.bound = false ∧ s.phase = .decode ∧
        ∃ df a c, decode s.latch = .ok (.bind df a c) ∧ t.sessAddr = a ∧ t.bound = true ∧ t.errCode = .ok) := by
  rcases controllerStep_next h with ⟨-, rfl⟩ | ⟨-, rfl⟩ | ⟨hp, i, hd, he⟩ | ⟨x, -, rfl⟩
  · exact .inl ⟨rfl, rfl⟩
  · exact .inl ⟨rfl, rfl⟩
  · obtain ⟨-, -, -, -, -, -, -, -, -, -, hkept | ⟨hb, df, a, c, rfl, hmade⟩⟩ := effect_frame he
    · exact .inl hkept
    · exact .inr ⟨hb, hp, df, a, c, hd, hmade⟩
  · obtain ⟨-, hb, ha, -⟩ := busStep_frame x s
    exact .inl ⟨hb, ha⟩

/-- Settles O51: the host cannot write the session, and the controller makes one only while unbound. -/
theorem boundAddressIsImmutable : Obligations.BoundAddressIsImmutable := by
  intro s t hbound h hr
  rcases step_controller_or_hostKeeps h hr with ⟨-, l, hc⟩ | hk
  · rcases controllerStep_session hc with ⟨hb, ha⟩ | ⟨hfree, -⟩
    · exact ⟨hb.trans hbound, ha⟩
    · simp [hbound] at hfree
  · exact ⟨hk.bound.trans hbound, hk.sessAddr⟩

theorem hostWrite_timeout_idle {s : State} (v : Word) (h : s.busy = false) :
    hostWrite 32 0x14 v s = .next { s with timeout := v } := by
  rw [hostWrite, (accessed_iff 32 0x14 .timeout).2 (by decide)]
  simp [writeReg, writeTimeout, h]

/-- Settles O12: a write of either register while busy is the overlap of R135, and an idle one of `TIMEOUT` is
answered. -/
theorem writesWhileBusyFault : Obligations.WritesWhileBusyFault := by
  refine ⟨fun s rest off v ho hb ha => ?_, fun s rest v hb ha => ?_⟩
  · exact step_of_hostFault (.overlap ha (by simpa using ho) hb)
  · rw [step_of_turn ha]
    exact hostWrite_timeout_idle v hb

end Sys2Proof.Proofs

/-! # Proofs of the family other: the encoding, R64 to R69 and R73 -/

namespace Sys2Proof.Proofs

open Sys2Proof.Machine Sys2Proof.Claims

/-- Settles O1: each word is laid out in its command's format, and the decoder reads the fields of that format. -/
theorem decodeOfEncodeIsTheCommand : Obligations.DecodeOfEncodeIsTheCommand := by
  intro i
  cases i with
  | busWrite reg n data => simp only [encode, decode, fieldR, fieldN, fieldD, layoutT_fields]; simp
  | busRead reg n => simp only [encode, decode, fieldR, fieldN, layoutT_fields]; simp
  | encConfig f v base => simp only [encode, decode, fieldF, fieldV, fieldD, layoutK_fields]; simp
  | decConv b => simp only [encode, decode, fieldD, layoutB_fields]; simp
  | decStatus b => simp only [encode, decode, fieldD, layoutB_fields]; simp
  | encThresh v => simp only [encode, decode, fieldD, layoutB_fields]; simp
  | bind df a c => simp only [encode, decode, fieldDF, fieldA, fieldD, layoutN_fields]; cases df <;> simp
  | setField f v => simp only [encode, decode, fieldF, fieldV, layoutK_fields]; simp
  | reqChan sel => simp only [encode, decode, fieldV, layoutK_fields]; simp
  | isReady => rfl
  | readConv => rfl
  | setThresh which v => simp only [encode, decode, fieldR, fieldD, layoutK_fields]; simp

theorem opcode_of_toNat {w : Word} {k : Nat} (h : (bitsAt w 28 4).toNat = k) : bitsAt w 28 4 = BitVec.ofNat 4 k := by
  rw [← h, BitVec.ofNat_toNat, BitVec.setWidth_eq]

theorem ofBool_fieldDF (w : Word) : BitVec.ofBool (fieldDF w) = bitsAt w 27 1 := by
  unfold fieldDF
  generalize bitsAt w 27 1 = df
  revert df
  decide

/-- A word that is a command is that command's word. -/
theorem encode_of_decode_ok {w : Word} {i : Instr} (h : decode w = .ok i) : encode i = w := by
  unfold decode at h
  split at h
  case h_13 => simp at h
  all_goals
    rename_i hop
    have hop := opcode_of_toNat hop
    simp only [unlessReserved_eq_ok, unlessReserved2_eq_ok, Except.ok.injEq] at h
  case h_1 => obtain ⟨hz, rfl⟩ := h; have hw := layoutT_eta w; rw [hop, hz] at hw; exact hw
  case h_2 => obtain ⟨⟨hz, hd⟩, rfl⟩ := h; have hw := layoutT_eta w; rw [hop, hz, hd] at hw; exact hw
  case h_3 => subst h; have hw := layoutK_eta w; rw [hop] at hw; exact hw
  case h_4 => obtain ⟨hz, rfl⟩ := h; have hw := layoutB_eta w; rw [hop, hz] at hw; exact hw
  case h_5 => obtain ⟨hz, rfl⟩ := h; have hw := layoutB_eta w; rw [hop, hz] at hw; exact hw
  case h_6 => obtain ⟨hz, rfl⟩ := h; have hw := layoutB_eta w; rw [hop, hz] at hw; exact hw
  case h_7 => obtain ⟨hz, rfl⟩ := h; have hw := layoutN_eta w; rw [hop, hz, ← ofBool_fieldDF] at hw; exact hw
  case h_8 => obtain ⟨hz, rfl⟩ := h; have hw := layoutK_eta w; rw [hop, hz] at hw; exact hw
  case h_9 => obtain ⟨⟨hz, hd⟩, rfl⟩ := h; have hw := layoutK_eta w; rw [hop, hz, hd] at hw; exact hw
  case h_10 => obtain ⟨hz, rfl⟩ := h; have hw := layoutZ_eta w; rw [hop, hz] at hw; exact hw
  case h_11 => obtain ⟨hz, rfl⟩ := h; have hw := layoutZ_eta w; rw [hop, hz] at hw; exact hw
  case h_12 => obtain ⟨hz, rfl⟩ := h; have hw := layoutK_eta w; rw [hop, hz] at hw; exact hw

/-- R69: a command's word matches the row of its mnemonic. -/
theorem encode_accepts_row (i : Instr) : ∃ r ∈ opcodeMap, r.mnemonic = i.mnemonic ∧ r.accepts (encode i) := by
  cases i with
  | busWrite reg n data => exact Laws.EncodeRow.busWrite reg n data
  | busRead reg n => exact Laws.EncodeRow.busRead reg n
  | encConfig f v base => exact Laws.EncodeRow.encConfig f v base
  | decConv b => exact Laws.EncodeRow.decConv b
  | decStatus b => exact Laws.EncodeRow.decStatus b
  | encThresh v => exact Laws.EncodeRow.encThresh v
  | bind df a c => exact Laws.EncodeRow.bind df a c
  | setField f v => exact Laws.EncodeRow.setField f v
  | reqChan sel => exact Laws.EncodeRow.reqChan sel
  | isReady => exact Laws.EncodeRow.isReady
  | readConv => exact Laws.EncodeRow.readConv
  | setThresh which v => exact Laws.EncodeRow.setThresh which v

/-- A word that matches a row has that row's opcode: every mask keeps bits 31:28. -/
theorem opcode_of_accepts {w : Word} {r : OpcodeRow} (hr : r ∈ opcodeMap) (h : r.accepts w) :
    bitsAt w 28 4 = bitsAt r.pattern 28 4 := by
  have hmask : ∀ r ∈ opcodeMap, bitsAt r.mask 28 4 = BitVec.allOnes 4 := by decide
  rw [← h, bitsAt_and_of_ones (hmask r hr)]

theorem opcodeMap_row_unique {w : Word} {r₁ r₂ : OpcodeRow} (hr₁ : r₁ ∈ opcodeMap) (hr₂ : r₂ ∈ opcodeMap)
    (h₁ : r₁.accepts w) (h₂ : r₂.accepts w) : r₁ = r₂ := by
  have hop : ∀ r₁ ∈ opcodeMap, ∀ r₂ ∈ opcodeMap, bitsAt r₁.pattern 28 4 = bitsAt r₂.pattern 28 4 → r₁ = r₂ := by
    decide
  exact hop r₁ hr₁ r₂ hr₂ ((opcode_of_accepts hr₁ h₁).symm.trans (opcode_of_accepts hr₂ h₂))

/-- A decoded word matches the row of its command's mnemonic. -/
theorem decode_ok_accepts {w : Word} {i : Instr} (h : decode w = .ok i) :
    ∃ r ∈ opcodeMap, r.mnemonic = i.mnemonic ∧ r.accepts w := by
  have hrow := encode_accepts_row i
  rwa [encode_of_decode_ok h] at hrow

/-- Settles O2: a command's word matches the command's row, and no two rows have the same opcode. -/
theorem decoderAcceptsExactlyTheOpcodeMap : Obligations.DecoderAcceptsExactlyTheOpcodeMap := by
  refine ⟨fun w i h => ⟨encode_of_decode_ok h, decode_ok_accepts h⟩, fun w r hr h => ?_,
    fun w r₁ hr₁ r₂ hr₂ => opcodeMap_row_unique hr₁ hr₂⟩
  obtain ⟨i, hi⟩ := (decode_ok_iff_accepts r hr (opcode_of_accepts hr h)).2 h
  obtain ⟨r', hr', hm, h'⟩ := decode_ok_accepts hi
  obtain rfl := opcodeMap_row_unique hr' hr h' h
  exact ⟨i, hi, hm.symm⟩

/-- Settles O4: the decoder runs on each listed word. -/
theorem listedWordsDecode : Obligations.ListedWordsDecode := by
  unfold Obligations.ListedWordsDecode
  decide

/-- Settles O6: the assembler runs on each listed line. -/
theorem assemblerMakesTheListedWords : Obligations.AssemblerMakesTheListedWords := by
  unfold Obligations.AssemblerMakesTheListedWords
  decide

end Sys2Proof.Proofs

/-! # Proofs of the family other: the invariant and the framing of the bus log -/

namespace Sys2Proof.Proofs

open Sys2Proof.Machine Sys2Proof.Claims

/-! ### The steps of a transaction -/

/-- R85, R86: a transaction begins with its start, and has no other. -/
theorem allOps_eq_start_cons (t : Txn) (a : BusAddr) (sc : Scratch) :
    ∃ ops, t.allOps a sc = .cond .start :: ops ∧ BusOp.cond .start ∉ ops := by
  unfold Txn.allOps
  cases t.dir with
  | wr => exact ⟨_, rfl, by simp only [writeOut, List.mem_cons, List.mem_map]; simp⟩
  | rd => exact ⟨_, rfl, by simp⟩

/-- Only a read receives. -/
theorem dir_of_rx_mem_allOps {t : Txn} {a : BusAddr} {sc : Scratch} {i : Nat} {last : Bool}
    (h : BusOp.rx i last ∈ t.allOps a sc) : t.dir = .rd := by
  unfold Txn.allOps at h
  cases hd : t.dir with
  | wr => simp only [hd, writeOps, writeOut, List.mem_cons, List.mem_map] at h; simp at h
  | rd => rfl

/-- A command that reads stages nothing. -/
theorem stagedWord_of_read {cmd : Instr} {ptr : Byte} {n : Nat} (h : cmd.transaction = some (.rd, ptr, n))
    (mirror : Half) : stagedWord mirror cmd = none := by
  cases cmd <;> simp [Instr.transaction, stagedWord] at h ⊢

/-- After its first step a transaction has no start left. -/
theorem no_start_after_first {s : State} {t : Txn} {op : BusOp} {rest : List BusOp} (h : TxnOk s t)
    (ht : t.todo = op :: rest) : rest.head? ≠ some (.cond .start) := by
  obtain ⟨ops, hall, hstart⟩ := allOps_eq_start_cons t s.sessAddr s.scratch
  have hpos := h.position
  rw [ht, hall] at hpos
  have hrest : rest <:+ ops := by
    rcases List.suffix_cons_iff.1 hpos with heq | hsuf
    · rw [(List.cons.inj heq).2]
    · exact (List.suffix_cons op rest).trans hsuf
  exact fun hhead => hstart (hrest.subset (List.mem_of_head? hhead))

/-! ### The invariant, update by update -/

/-- The invariant says nothing of `TIMEOUT` and of what the host has seen, nor of the turns still to come. -/
theorem inv_withHostData {s : State} (h : s.Inv) (l : List Turn) (log : List Word) (v : Word) :
    ({ s with agenda := l, hostLog := log, timeout := v } : State).Inv where
  busy := h.busy
  errCode := h.errCode
  fail := h.fail
  txn x hx := by
    obtain ⟨latched, wf, bound, shape, position, staged⟩ := h.txn x hx
    exact ⟨latched, wf, bound, shape, position, staged⟩

theorem inv_complete (s : State) (c : Code) : (s.complete c).Inv where
  busy := by simp
  errCode h := absurd rfl h
  fail h := absurd rfl h
  txn _ hx := by simp at hx

theorem inv_resetEvent (s : State) : s.resetEvent.Inv where
  busy := by simp
  errCode h := absurd rfl h
  fail h := absurd rfl h
  txn _ hx := by simp at hx

/-- No transaction runs, so no not-acknowledge waits for its stop. -/
theorem fail_of_no_txn {s : State} (h : s.Inv) (hp : ∀ t, s.phase ≠ .bus t) : s.fail = none := by
  by_contra hf
  have hown := h.fail hf
  unfold State.ownsBus at hown
  split at hown
  · rename_i t ht; exact hp t ht
  · simp at hown

theorem phase_of_not_busy {s : State} (h : s.Inv) (hb : s.busy = false) : s.phase = .idle := by
  by_contra hp
  simp [h.busy.2 hp] at hb

theorem inv_issue {s : State} (h : s.Inv) (hb : s.busy = false) (w : Word) : (s.issue w).Inv where
  busy := by simp
  errCode _ := rfl
  fail hf := absurd (fail_of_no_txn h (by simp [phase_of_not_busy h hb])) hf
  txn _ hx := by simp at hx

/-- `s` is in the `DECODE` step of `cmd`, as the invariant has it. -/
structure Decoding (cmd : Instr) (s : State) : Prop where
  busy : s.busy = true
  errCode : s.errCode = .ok
  fail : s.fail = none
  latched : decode s.latch = .ok cmd

theorem decoding_of_inv {s : State} {cmd : Instr} (h : s.Inv) (hp : s.phase = .decode)
    (hd : decode s.latch = .ok cmd) : Decoding cmd s where
  busy := h.busy.2 (by simp [hp])
  errCode := h.errCode (by simp [hp])
  fail := fail_of_no_txn h (by simp [hp])
  latched := hd

section

variable {s : State} {cmd : Instr} {ptr : Byte} {n : Nat}

theorem inv_startRead (h : Decoding cmd s) (hb : s.bound = true) (hw : cmd.wf = true)
    (hs : cmd.transaction = some (.rd, ptr, n)) : (s.startRead cmd ptr n).Inv where
  busy := by simp [State.startRead_eq, h.busy]
  errCode _ := h.errCode
  fail hf := absurd h.fail hf
  txn t ht := by
    obtain rfl := Phase.bus.inj ht
    exact ⟨h.latched, hw, hb, hs, List.suffix_refl _, by simp [stagedWord_of_read hs]⟩

theorem inv_startWrite {d : Half} (h : Decoding cmd s) (hb : s.bound = true) (hw : cmd.wf = true)
    (hs : cmd.transaction = some (.wr, ptr, n)) (hd : stagedWord s.cfgMirror cmd = some d) :
    (s.startWrite cmd ptr n d).Inv where
  busy := by simp [State.startWrite_eq, h.busy]
  errCode _ := h.errCode
  fail hf := absurd h.fail hf
  txn t ht := by
    obtain rfl := Phase.bus.inj ht
    refine ⟨h.latched, hw, hb, hs, List.suffix_refl _, fun v hv => ?_⟩
    obtain rfl : d = v := Option.some.inj (hd.symm.trans hv)
    rfl

end

/-- A command's effect completes the command, or sets up its well-formed transaction. -/
theorem effect_inv {i : Instr} {s t : State} (h : Decoding i s) (he : Effect i s t) : t.Inv := by
  cases i <;> simp only [Effect] at he
  case encConfig => obtain ⟨_, -, -, rfl⟩ := he; exact inv_complete _ _
  case decConv => subst he; exact inv_complete _ _
  case decStatus => subst he; exact inv_complete _ _
  case encThresh => subst he; exact inv_complete _ _
  case bind => obtain ⟨-, -, rfl⟩ := he; exact inv_complete _ _
  case setField => obtain ⟨-, _, -, -, -, rfl⟩ := he; exact inv_complete _ _
  case busWrite reg n d =>
    obtain ⟨hb, hreg, hn, rfl⟩ := he
    have hn' : n.toNat ≤ 2 := by bv_omega
    exact inv_startWrite h hb (by simp [Instr.wf, hreg, hn']) rfl rfl
  case busRead reg n =>
    obtain ⟨hb, hreg, ⟨h0, h3⟩, rfl⟩ := he
    have hn : 1 ≤ n.toNat ∧ n.toNat ≤ 2 := by bv_omega
    exact inv_startRead h hb (by simp [Instr.wf, hreg, hn]) rfl
  case reqChan sel =>
    obtain ⟨hb, hsel, rfl⟩ := he
    exact inv_startWrite ⟨h.busy, h.errCode, h.fail, h.latched⟩ hb (by simp [Instr.wf, hsel]) rfl rfl
  case isReady => obtain ⟨hb, rfl⟩ := he; exact inv_startRead h hb rfl rfl
  case readConv => obtain ⟨hb, rfl⟩ := he; exact inv_startRead h hb rfl rfl
  case setThresh which v =>
    obtain ⟨hb, hw, rfl⟩ := he
    exact inv_startWrite h hb (by rcases hw with rfl | rfl <;> rfl) rfl rfl

/-- A step further in a transaction keeps it the latched command's: only a read's steps write `SCRATCH`. -/
theorem txnOk_of_goes {s u : State} {t : Txn} {a : Answer} {op : BusOp} {rest : List BusOp} {e : BusEvent}
    {fl : Option NackCause} (h : TxnOk s t) (ht : t.todo = op :: rest) (hg : Goes a s.scratch op e fl u.scratch)
    (hl : u.latch = s.latch) (hb : u.bound = s.bound) (ha : u.sessAddr = s.sessAddr)
    (hm : u.cfgMirror = s.cfgMirror) : TxnOk u { t with todo := rest } := by
  obtain ⟨latched, wf, bound, shape, position, staged⟩ := h
  have hpos : rest <:+ t.allOps s.sessAddr s.scratch := (ht ▸ List.suffix_cons op rest).trans position
  have hmem : op ∈ t.allOps s.sessAddr s.scratch := position.subset (by simp [ht])
  by_cases hd : t.dir = .rd
  · refine ⟨hl ▸ latched, wf, hb ▸ bound, shape, ?_, by simp [stagedWord_of_read (hd ▸ shape)]⟩
    simpa [Txn.allOps, hd, ha] using hpos
  · have hsc : u.scratch = s.scratch := by
      generalize u.scratch = sc at hg
      cases hg with
      | cond => rfl
      | ack => rfl
      | nack => rfl
      | rx => exact absurd (dir_of_rx_mem_allOps hmem) hd
    refine ⟨hl ▸ latched, wf, hb ▸ bound, shape, ?_, hm ▸ hsc ▸ staged⟩
    rw [ha, hsc]
    exact hpos

theorem ownsBus_of_bus {s : State} {t : Txn} (h : s.phase = .bus t) :
    s.ownsBus = true ↔ t.todo.head? ≠ some (.cond .start) := by
  simp [State.ownsBus, h]

theorem busStep_inv {s : State} {t : Txn} (h : s.Inv) (hp : s.phase = .bus t) : (busStep t s).Inv := by
  rcases busStep_cases t s with ⟨c, -, hs⟩ | ⟨-, c, -, hs⟩ | ⟨-, -, -, hs⟩ |
    ⟨-, op, rest, e, fl, sc, -, ht, hg, hs⟩ <;> rw [hs]
  · exact inv_complete _ _
  · exact inv_complete _ _
  · exact inv_complete _ _
  · have hx := h.txn t hp
    have hrun : s.phase ≠ .idle := by simp [hp]
    exact {
      busy := by simp [h.busy.2 hrun]
      errCode := fun _ => h.errCode hrun
      fail := fun _ => (ownsBus_of_bus rfl).2 (no_start_after_first hx ht)
      txn := fun x hx' => by
        obtain rfl := Phase.bus.inj hx'
        exact txnOk_of_goes hx ht hg rfl rfl rfl rfl }

theorem controllerStep_inv {s t : State} (h : s.Inv) (hs : controllerStep s = .next t) : t.Inv := by
  rcases controllerStep_next hs with ⟨-, rfl⟩ | ⟨-, rfl⟩ | ⟨hp, i, hd, he⟩ | ⟨x, hp, rfl⟩
  · exact h
  · exact inv_complete _ _
  · exact effect_inv (decoding_of_inv h hp hd) he
  · exact busStep_inv h hp

/-- Settles O49: a controller step keeps the invariant, the host starts a command only while idle, and a reset ends
everything. -/
theorem stepKeepsTheInvariant : Obligations.StepKeepsTheInvariant := by
  intro s t h hs
  rcases step_cases hs with ⟨s0, hn, hc⟩ | ⟨rest, w, off, r, v, -, -, -, rfl⟩ | ⟨rest, w, off, v, -, -, hb, rfl⟩ |
    ⟨rest, w, off, v, -, -, -, rfl⟩ | ⟨rest, w, off, r, v, -, -, rfl⟩ | ⟨rest, -, rfl⟩
  · rw [(controllerNext_frame hn).1] at hc
    exact controllerStep_inv (inv_withAgenda h _) hc
  · exact inv_withHostData h _ _ _
  · exact inv_issue (inv_withAgenda h rest) hb v
  · exact inv_withHostData h _ _ _
  · exact inv_withAgenda h rest
  · exact inv_resetEvent _

/-! ### The framing of the bus log -/

theorem ownsBus_of_no_txn {s : State} (h : ∀ t, s.phase ≠ .bus t) : s.ownsBus = false := by
  unfold State.ownsBus
  split
  · rename_i t ht; exact absurd ht (h t)
  · rfl

theorem framedLog_congr {s t : State} (h : s.FramedLog) (hl : t.busLog = s.busLog) (ho : t.ownsBus = s.ownsBus) :
    t.FramedLog := by
  rw [State.FramedLog, hl, ho]
  exact h

/-- One event more, which may stand there. -/
theorem framedLog_snoc {s t : State} {e : BusEvent} (h : s.FramedLog) (hl : t.busLog = s.busLog ++ [e])
    (he : ownAfter s.ownsBus e = some t.ownsBus) : t.FramedLog := by
  rw [State.FramedLog, hl, ownerAfter_append, h]
  exact he

/-- No command's effect puts anything on the bus: its transaction has not begun. -/
theorem effect_ownsBus {i : Instr} {s t : State} (h : Effect i s t) : t.ownsBus = false := by
  cases i <;> simp only [Effect] at h
  case busWrite => obtain ⟨-, -, -, rfl⟩ := h; rfl
  case busRead => obtain ⟨-, -, -, rfl⟩ := h; rfl
  case encConfig => obtain ⟨_, -, -, rfl⟩ := h; rfl
  case decConv => subst h; rfl
  case decStatus => subst h; rfl
  case encThresh => subst h; rfl
  case bind => obtain ⟨-, -, rfl⟩ := h; rfl
  case setField => obtain ⟨-, _, -, -, -, rfl⟩ := h; rfl
  case reqChan => obtain ⟨-, -, rfl⟩ := h; rfl
  case isReady => obtain ⟨-, rfl⟩ := h; rfl
  case readConv => obtain ⟨-, rfl⟩ := h; rfl
  case setThresh => obtain ⟨-, -, rfl⟩ := h; rfl

/-- A step further takes the bus with a start, and needs it for every other event. -/
theorem ownAfter_of_goes {a : Answer} {sc sc' : Scratch} {op : BusOp} {e : BusEvent} {fl : Option NackCause}
    (h : Goes a sc op e fl sc') : ownAfter (decide (op ≠ .cond .start)) e = some true := by
  cases h with
  | cond k => cases k <;> rfl
  | ack => rfl
  | nack => rfl
  | rx => rfl

theorem busStep_framedLog {s : State} {t : Txn} (h : s.Inv) (hf : s.FramedLog) (hp : s.phase = .bus t) :
    (busStep t s).FramedLog := by
  rcases busStep_cases t s with ⟨c, hfail, hs⟩ | ⟨-, c, -, hs⟩ | ⟨-, -, ht, hs⟩ |
    ⟨-, op, rest, e, fl, sc, -, ht, hg, hs⟩ <;> rw [hs]
  · have hown : s.ownsBus = true := h.fail (by simp [hfail])
    exact framedLog_snoc hf rfl (by rw [hown]; rfl)
  · exact framedLog_snoc hf rfl rfl
  · have hown : s.ownsBus = true := (ownsBus_of_bus hp).2 (by simp [ht])
    exact framedLog_snoc (e := .stop) hf (by cases txnResult t.cmd s.scratch <;> rfl) (by rw [hown]; rfl)
  · refine framedLog_snoc hf rfl ?_
    have hbefore : s.ownsBus = decide (op ≠ .cond .start) := by simp [State.ownsBus, hp, ht]
    rw [hbefore, (ownsBus_of_bus rfl).2 (no_start_after_first (h.txn t hp) ht)]
    exact ownAfter_of_goes hg

theorem controllerStep_framedLog {s t : State} (h : s.Inv) (hf : s.FramedLog) (hs : controllerStep s = .next t) :
    t.FramedLog := by
  rcases controllerStep_next hs with ⟨-, rfl⟩ | ⟨hp, rfl⟩ | ⟨hp, i, -, he⟩ | ⟨x, hp, rfl⟩
  · exact hf
  · exact framedLog_congr hf rfl (ownsBus_of_no_txn (by simp [hp])).symm
  · obtain ⟨-, -, -, -, -, -, -, -, -, hlog, -⟩ := effect_frame he
    exact framedLog_congr hf hlog ((effect_ownsBus he).trans (ownsBus_of_no_txn (by simp [hp])).symm)
  · exact busStep_framedLog h hf hp

/-- Settles O50: an event of the controller stands where it may, and no other agent puts one on the bus. -/
theorem stepKeepsTheBusFramed : Obligations.StepKeepsTheBusFramed := by
  intro s t h hf hs
  rcases step_cases hs with ⟨s0, hn, hc⟩ | ⟨rest, w, off, r, v, -, -, -, rfl⟩ | ⟨rest, w, off, v, -, -, hb, rfl⟩ |
    ⟨rest, w, off, v, -, -, -, rfl⟩ | ⟨rest, w, off, r, v, -, -, rfl⟩ | ⟨rest, -, rfl⟩
  · rw [(controllerNext_frame hn).1] at hc
    have hf0 : ({ s with agenda := s0.agenda } : State).FramedLog := hf
    exact controllerStep_framedLog (inv_withAgenda h _) hf0 hc
  · exact hf
  · exact framedLog_congr hf rfl (ownsBus_of_no_txn (by simp [phase_of_not_busy h hb])).symm
  · exact hf
  · exact hf
  · rfl

/-- Settles O48: nothing runs and nothing is on the bus. -/
theorem resetMeetsTheInvariant : Obligations.ResetMeetsTheInvariant :=
  fun c => ⟨inv_resetEvent (State.resetWith c), rfl⟩

end Sys2Proof.Proofs

/-! # Proofs of the family other: what a bus step comes to, R81 and R87 to R92 -/

namespace Sys2Proof.Proofs

open Sys2Proof.Machine Sys2Proof.Claims

/-! ### The bus step, case by case -/

/-- The stop after a not-acknowledge. -/
theorem busStep_nackStop {s : State} {t : Txn} {c : NackCause} (hf : s.fail = some c) :
    busStep t s = ended c.code [.stop] 0 s := by
  rw [busStep, hf]
  rfl

theorem ended_abort (c : AbortCause) (s : State) :
    s.advanceOracle.abort c = ended c.code [.abort c] 1 s := by
  rw [ended, List.drop_one]
  rfl

section

variable {s : State} {t : Txn}

/-- The answer is a failure. -/
theorem busStep_abort {c : AbortCause} (hf : s.fail = none)
    (ha : failureAt s.config (s.answerAt 0) t.todo = some c) : busStep t s = ended c.code [.abort c] 1 s := by
  rw [← ended_abort]
  rcases busStep_cases t s with ⟨c, hc, -⟩ | ⟨-, c', hc', h⟩ | ⟨-, hn, -⟩ | ⟨-, op, rest, e, fl, sc, hn, -⟩
  · simp [hf] at hc
  · rw [nextAnswer_eq, ha] at hc'
    rw [h, Option.some.inj hc']
  · simp [nextAnswer_eq, ha] at hn
  · simp [nextAnswer_eq, ha] at hn

/-- The final stop. -/
theorem busStep_finalStop (hf : s.fail = none) (ha : failureAt s.config (s.answerAt 0) t.todo = none)
    (ht : t.todo = []) : busStep t s = ended .ok [.stop] 1 (s.setResultOpt (txnResult t.cmd s.scratch)) := by
  rcases busStep_cases t s with ⟨c, hc, -⟩ | ⟨-, c, hc, -⟩ | ⟨-, -, -, h⟩ | ⟨-, op, rest, e, fl, sc, -, hcons, -⟩
  · simp [hf] at hc
  · simp [nextAnswer_eq, ha] at hc
  · rw [h, ended, List.drop_one]
    cases txnResult t.cmd s.scratch <;> rfl
  · simp [ht] at hcons

/-- The state one step further in a transaction: `e` is on the bus, one question is asked, and `t` is left to do. -/
def further (e : BusEvent) (fl : Option NackCause) (sc : Scratch) (t : Txn) (s : State) : State :=
  { going e t s with fail := fl, scratch := sc }

/-- What a step further does is settled by the step and the answer. -/
theorem Goes.unique {a : Answer} {sc sc₁ sc₂ : Scratch} {op : BusOp} {e₁ e₂ : BusEvent} {fl₁ fl₂ : Option NackCause}
    (h₁ : Goes a sc op e₁ fl₁ sc₁) (h₂ : Goes a sc op e₂ fl₂ sc₂) : e₁ = e₂ ∧ fl₁ = fl₂ ∧ sc₁ = sc₂ := by
  cases h₁ <;> cases h₂ <;> simp_all

/-- One step further. -/
theorem busStep_goes {op : BusOp} {rest : List BusOp} {e : BusEvent} {fl : Option NackCause} {sc : Scratch}
    (hf : s.fail = none) (ha : failureAt s.config (s.answerAt 0) t.todo = none) (ht : t.todo = op :: rest)
    (hg : Goes (s.answerAt 0) s.scratch op e fl sc) :
    busStep t s = further e fl sc { t with todo := rest } s := by
  rcases busStep_cases t s with ⟨c, hc, -⟩ | ⟨-, c, hc, -⟩ | ⟨-, -, hnil, -⟩ |
    ⟨-, op', rest', e', fl', sc', -, ht', hg', h⟩
  · simp [hf] at hc
  · simp [nextAnswer_eq, ha] at hc
  · simp [ht] at hnil
  · obtain ⟨rfl, rfl⟩ := List.cons.inj (ht.symm.trans ht')
    rw [nextAnswer_eq] at hg'
    obtain ⟨rfl, rfl, rfl⟩ := Goes.unique hg hg'
    rw [h, further, going, List.drop_one]

end

/-! ### The answers that are failures -/

section

variable {cfg : Config} {a : Answer}

theorem failureAt_timeout (h : saysTimeout cfg a) (ops : List BusOp) : failureAt cfg a ops = some .timeout := by
  unfold failureAt
  split <;> simp [abortDriven_eq, abortUndriven_eq, h]

theorem failureAt_none (h : ¬ saysTimeout cfg a) (h' : ¬ saysArbLost cfg a) (ops : List BusOp) :
    failureAt cfg a ops = none := by
  unfold failureAt
  split <;> simp [abortDriven_eq, abortUndriven_eq, h, h']

theorem failureAt_cond (k : CondKind) (rest : List BusOp) : failureAt cfg a (.cond k :: rest) =
    if saysTimeout cfg a then some .timeout else if saysArbLost cfg a then some .arbLost else none := abortDriven_eq cfg a

theorem failureAt_tx (b : Byte) (c : NackCause) (rest : List BusOp) : failureAt cfg a (.tx b c :: rest) =
    if saysTimeout cfg a then some .timeout else if saysArbLost cfg a then some .arbLost else none := abortDriven_eq cfg a

theorem failureAt_rx (i : Nat) (last : Bool) (rest : List BusOp) : failureAt cfg a (.rx i last :: rest) =
    if saysTimeout cfg a then some .timeout else none := abortUndriven_eq cfg a

theorem failureAt_stop : failureAt cfg a [] = if saysTimeout cfg a then some .timeout else none :=
  abortUndriven_eq cfg a

/-- R12: a failure is a timeout, or a lost arbitration where the controller drives the bus. -/
theorem failureAt_some {ops : List BusOp} {c : AbortCause} (h : failureAt cfg a ops = some c) :
    (saysTimeout cfg a ∧ c = .timeout) ∨ (saysArbLost cfg a ∧ c = .arbLost ∧
      ∃ rest, (∃ k, ops = .cond k :: rest) ∨ ∃ b cause, ops = .tx b cause :: rest) := by
  by_cases hto : saysTimeout cfg a
  · rw [failureAt_timeout hto] at h
    exact .inl ⟨hto, (Option.some.inj h).symm⟩
  · by_cases harb : saysArbLost cfg a
    · refine .inr ⟨harb, ?_⟩
      rcases ops with _ | ⟨k | ⟨b, cause⟩ | ⟨i, last⟩, rest⟩
      · simp [failureAt_stop, hto] at h
      · rw [failureAt_cond, if_neg hto, if_pos harb] at h
        exact ⟨(Option.some.inj h).symm, rest, .inl ⟨k, rfl⟩⟩
      · rw [failureAt_tx, if_neg hto, if_pos harb] at h
        exact ⟨(Option.some.inj h).symm, rest, .inr ⟨b, cause, rfl⟩⟩
      · simp [failureAt_rx, hto] at h
    · simp [failureAt_none hto harb] at h

end

/-! ### The bus steps of the two transactions -/

theorem step_of_bus {s s0 : State} {t : Txn} (hn : ControllerNext s s0) (hp : s0.phase = .bus t) :
    step s = .next (busStep t s0) := by
  rw [step_of_controllerNext hn, controllerStep_bus hp]

theorem step_timeout {s s0 : State} {t : Txn} (hn : ControllerNext s s0) (hp : s0.phase = .bus t)
    (hf : s0.fail = none) (ha : saysTimeout s0.config (s0.answerAt 0)) :
    step s = .next (ended .timeout [.abort .timeout] 1 s0) := by
  rw [step_of_bus hn hp, busStep_abort hf (failureAt_timeout ha _)]
  rfl

theorem step_arbLost {s s0 : State} {t : Txn} (hn : ControllerNext s s0) (hp : s0.phase = .bus t)
    (hf : s0.fail = none) (ha : failureAt s0.config (s0.answerAt 0) t.todo = some .arbLost) :
    step s = .next (ended .arbLost [.abort .arbLost] 1 s0) := by
  rw [step_of_bus hn hp, busStep_abort hf ha]
  rfl

/-- Settles O32: the answer aborts the step, or the condition is emitted. -/
theorem conditionStepEmitsOrAborts : Obligations.ConditionStepEmitsOrAborts := by
  intro s s0 t k rest hn hp hf ht
  refine ⟨fun hto harb => ?_, step_timeout hn hp hf, fun harb => step_arbLost hn hp hf ?_⟩
  · rw [step_of_bus hn hp, busStep_goes hf (failureAt_none hto harb _) ht (.cond k)]
    cases k <;> simp [further, going, ← hf, CondKind.event]
  · rw [ht, failureAt_cond, if_neg harb.1, if_pos harb]

theorem addrByteW_eq_shifted (a : BusAddr) : addrByteW a = shifted a := by
  revert a
  decide

theorem addrByteR_eq_shifted (a : BusAddr) : addrByteR a = shifted a ||| 1#8 := by
  revert a
  decide

/-- The steps of `TxnWrite` (R85), its address byte as R84 writes it. -/
theorem writeOps_eq_shifted (a : BusAddr) (ptr : Byte) (n : Nat) (sc : Scratch) :
    writeOps a ptr n sc = [.cond .start, .tx (shifted a) .addr, .tx ptr .data] ++
      [BusOp.tx sc.b0 .data, .tx sc.b1 .data].take n := by
  rw [← addrByteW_eq_shifted, writeOps, writeOut, List.map_take]
  rfl

/-- The steps of `TxnRead` (R86), its address bytes as R84 writes them. -/
theorem readOps_eq_shifted (a : BusAddr) (ptr : Byte) (n : Nat) :
    readOps a ptr n = [.cond .start, .tx (shifted a) .addr, .tx ptr .data, .cond .repStart,
      .tx (shifted a ||| 1#8) .addr] ++ (List.range n).map fun i => .rx i (i + 1 == n) := by
  rw [← addrByteR_eq_shifted, ← addrByteW_eq_shifted]
  rfl

/-- Settles O33: a byte's cause stands in its transaction's list, and the answer decides between the four ends. -/
theorem transmitStepChecksTheAcknowledge : Obligations.TransmitStepChecksTheAcknowledge := by
  refine ⟨fun a ptr n sc => ?_, fun a ptr n => ?_, fun s s0 t b cause rest hn hp hf ht => ⟨?_, ?_, ?_, ?_⟩⟩
  · refine ⟨_, writeOps_eq_shifted a ptr n sc, fun op hop => ?_⟩
    have hop := List.mem_of_mem_take hop
    simp only [List.mem_cons, List.not_mem_nil, or_false] at hop
    exact hop.elim (fun h => ⟨_, h⟩) fun h => ⟨_, h⟩
  · refine ⟨_, readOps_eq_shifted a ptr n, fun op hop => ?_⟩
    obtain ⟨i, -, rfl⟩ := List.mem_map.1 hop
    exact ⟨_, _, rfl⟩
  · intro hto harb hack
    rw [step_of_bus hn hp, busStep_goes hf (failureAt_none hto harb _) ht (.ack b cause hack)]
    simp [further, going, ← hf]
  · intro hto harb hack
    rw [step_of_bus hn hp, busStep_goes hf (failureAt_none hto harb _) ht (.nack b cause hack)]
    rfl
  · exact step_timeout hn hp hf
  · exact fun harb => step_arbLost hn hp hf (by rw [ht, failureAt_tx, if_neg harb.1, if_pos harb])

theorem Scratch.put_of_lt_two {i : Nat} (hi : i < 2) (b : Byte) (sc : Scratch) :
    sc.put i b = if i = 0 then ⟨b, sc.b1⟩ else ⟨sc.b0, b⟩ := by
  obtain rfl | rfl : i = 0 ∨ i = 1 := by omega
  · rfl
  · rfl

/-- Settles O34: of the failures only a timeout is read here, and the byte goes to its place. -/
theorem receiveStepStoresAndAnswers : Obligations.ReceiveStepStoresAndAnswers := by
  intro s s0 t i last rest hn hp hf ht hi
  refine ⟨fun hto => ?_, step_timeout hn hp hf⟩
  have hgo : failureAt s0.config (s0.answerAt 0) t.todo = none := by rw [ht, failureAt_rx, if_neg hto]
  rw [step_of_bus hn hp, busStep_goes hf hgo ht (.rx i last), ← Scratch.put_of_lt_two hi]
  simp [further, going, ← hf]

/-- Settles O35: with a cause in `FAIL` the bus step is the stop. -/
theorem nackIsFollowedByStop : Obligations.NackIsFollowedByStop := by
  intro s s0 t c hn hp hf
  rw [step_of_bus hn hp, busStep_nackStop hf]
  cases c <;> rfl

/-- Settles O36: only a timeout is read at a stop, and the result is that of the transaction's command. -/
theorem finalStopCompletes : Obligations.FinalStopCompletes := by
  intro s s0 t hn hp hf ht
  refine ⟨fun hto => ?_, step_timeout hn hp hf⟩
  have hgo : failureAt s0.config (s0.answerAt 0) t.todo = none := by rw [ht, failureAt_stop, if_neg hto]
  rw [step_of_bus hn hp, busStep_finalStop hf hgo ht]
  cases t.cmd with
  | isReady => simp only [txnResult, statusResult_eq]; rfl
  | _ => rfl

/-- Settles O37: in each of the four cases of a bus step one event is added. -/
theorem oneEventPerBusStep : Obligations.OneEventPerBusStep := by
  intro s s0 t hn hp
  rw [step_of_bus hn hp]
  rcases busStep_cases t s0 with ⟨c, -, h⟩ | ⟨-, c, -, h⟩ | ⟨-, -, -, h⟩ | ⟨-, op, rest, e, fl, sc, -, -, -, h⟩ <;>
    rw [h]
  · exact ⟨_, _, rfl, rfl, .inl rfl⟩
  · exact ⟨_, _, rfl, rfl, .inr rfl⟩
  · cases txnResult t.cmd s0.scratch <;> exact ⟨_, _, rfl, rfl, .inr rfl⟩
  · exact ⟨_, _, rfl, rfl, .inr rfl⟩

/-! ### Where failures come from -/

theorem failureAt_allowed {cfg : Config} {a : Answer} {ops : List BusOp} {c : AbortCause}
    (h : failureAt cfg a ops = some c) :
    (c = .arbLost → cfg.arbLoss = true) ∧ (c = .timeout → cfg.timeoutAnyStep = true) := by
  rcases failureAt_some h with ⟨hto, rfl⟩ | ⟨harb, rfl, -⟩
  · exact ⟨fun hc => by simp at hc, fun _ => hto.1⟩
  · exact ⟨fun _ => harb.2.1, fun hc => by simp at hc⟩

/-- `ERRCODE` after a bus step: a not-acknowledge's code, an allowed failure's, `OK`, or what it was. -/
theorem busStep_errCode (t : Txn) (s : State) :
    (∃ c : NackCause, (busStep t s).errCode = c.code) ∨
      (∃ c : AbortCause, (busStep t s).errCode = c.code ∧
        (c = .arbLost → s.config.arbLoss = true) ∧ (c = .timeout → s.config.timeoutAnyStep = true)) ∨
      (busStep t s).errCode = .ok ∨ (busStep t s).errCode = s.errCode := by
  rcases busStep_cases t s with ⟨c, -, h⟩ | ⟨-, c, hc, h⟩ | ⟨-, -, -, h⟩ | ⟨-, op, rest, e, fl, sc, -, -, -, h⟩ <;>
    rw [h]
  · exact .inl ⟨c, rfl⟩
  · exact .inr (.inl ⟨c, rfl, failureAt_allowed hc⟩)
  · exact .inr (.inr (.inl rfl))
  · exact .inr (.inr (.inr rfl))

/-- The errors of R12's failures, and the parameter each needs. -/
def FailureAllowed (cfg : Config) (old new : Code) : Prop :=
  (cfg.arbLoss = false → old ≠ .arbLost → new ≠ .arbLost) ∧
    (cfg.timeoutAnyStep = false → old ≠ .timeout → new ≠ .timeout)

theorem busStep_failureAllowed (t : Txn) (s : State) : FailureAllowed s.config s.errCode (busStep t s).errCode := by
  rcases busStep_errCode t s with ⟨c, h⟩ | ⟨c, h, harb, hto⟩ | h | h <;> rw [h]
  · cases c <;> exact ⟨fun _ _ => by decide, fun _ _ => by decide⟩
  · cases c with
    | timeout => exact ⟨fun _ _ => by decide, fun h => by simp [hto rfl] at h⟩
    | arbLost => exact ⟨fun h => by simp [harb rfl] at h, fun _ _ => by decide⟩
  · exact ⟨fun _ _ => by decide, fun _ _ => by decide⟩
  · exact ⟨fun _ h => h, fun _ h => h⟩

/-- Settles O38: only a bus step's failure has one of the two codes, and it needs its parameter. -/
theorem parametersRuleFailuresOut : Obligations.ParametersRuleFailuresOut := by
  intro s s0 u hn hp h
  rw [step_of_controllerNext hn] at h
  rcases controllerStep_next h with ⟨hidle, -⟩ | ⟨-, rfl⟩ | ⟨-, i, -, he⟩ | ⟨x, -, rfl⟩
  · exact absurd hidle hp
  · exact ⟨fun _ _ => by simp [State.refuse_eq], fun _ _ => by simp [State.refuse_eq]⟩
  · rcases effect_ends he with ⟨hok, -⟩ | ⟨hsame, -⟩
    · simp [hok]
    · exact ⟨fun _ h => hsame ▸ h, fun _ h => hsame ▸ h⟩
  · exact busStep_failureAllowed x s0

/-- R99: a bus step that does not end with `OK` writes no result. -/
theorem busStep_result_of_failed {t : Txn} {s : State} (hp : (busStep t s).phase = .idle)
    (he : (busStep t s).errCode ≠ .ok) :
    (busStep t s).result = s.result ∧ (busStep t s).resultHeld = s.resultHeld := by
  rcases busStep_cases t s with ⟨c, -, h⟩ | ⟨-, c, -, h⟩ | ⟨-, -, -, h⟩ | ⟨-, op, rest, e, fl, sc, -, -, -, h⟩ <;>
    rw [h] at hp he ⊢
  · exact ⟨rfl, rfl⟩
  · exact ⟨rfl, rfl⟩
  · exact absurd rfl he
  · simp at hp

/-- Settles O47: no bus step touches the session, and only the final stop writes a result. -/
theorem failedTransactionLeavesTheRest : Obligations.FailedTransactionLeavesTheRest := by
  intro s s0 t u hn hp h
  rw [step_of_bus hn hp, Host.Outcome.next.injEq] at h
  subst h
  obtain ⟨-, hbound, haddr, hmirror, htimeout, -⟩ := busStep_frame t s0
  exact ⟨hmirror, haddr, hbound, htimeout, busStep_result_of_failed⟩

end Sys2Proof.Proofs

/-! # Proofs of the family other: what each command's `DECODE` step comes to -/

namespace Sys2Proof.Proofs

open Sys2Proof.Machine Sys2Proof.Claims

/-! ### A `DECODE` step is settled by its causes and its effect -/

/-- A command has at most one effect. -/
theorem effect_unique {i : Instr} {s t u : State} (ht : Effect i s t) (hu : Effect i s u) : t = u := by
  cases i <;> simp only [Effect] at ht hu
  case busWrite => obtain ⟨-, -, -, rfl⟩ := ht; obtain ⟨-, -, -, rfl⟩ := hu; rfl
  case busRead => obtain ⟨-, -, -, rfl⟩ := ht; obtain ⟨-, -, -, rfl⟩ := hu; rfl
  case encConfig =>
    obtain ⟨f, hf, -, rfl⟩ := ht
    obtain ⟨g, hg, -, rfl⟩ := hu
    obtain rfl : f = g := Option.some.inj (hf.symm.trans hg)
    rfl
  case decConv => exact ht.trans hu.symm
  case decStatus => exact ht.trans hu.symm
  case encThresh => exact ht.trans hu.symm
  case bind => obtain ⟨-, -, rfl⟩ := ht; obtain ⟨-, -, rfl⟩ := hu; rfl
  case setField =>
    obtain ⟨-, f, hf, -, -, rfl⟩ := ht
    obtain ⟨-, g, hg, -, -, rfl⟩ := hu
    obtain rfl : f = g := Option.some.inj (hf.symm.trans hg)
    rfl
  case reqChan => obtain ⟨-, -, rfl⟩ := ht; obtain ⟨-, -, rfl⟩ := hu; rfl
  case isReady => obtain ⟨-, rfl⟩ := ht; obtain ⟨-, rfl⟩ := hu; rfl
  case readConv => obtain ⟨-, rfl⟩ := ht; obtain ⟨-, rfl⟩ := hu; rfl
  case setThresh => obtain ⟨-, -, rfl⟩ := ht; obtain ⟨-, -, rfl⟩ := hu; rfl

theorem exec_of_effect {i : Instr} {s t : State} (h : Effect i s t) : exec i s = .next t := by
  rcases exec_refused_cause_or_effect i s with ⟨-, hc⟩ | ⟨u, hu, he⟩
  · exact absurd hc (effect_no_invalidCause h)
  · rw [hu, effect_unique h he]

theorem exec_of_invalidCause {i : Instr} {s : State} (h : invalidCause s.bound i) :
    exec i s = .next (refused s) := by
  rcases exec_refused_cause_or_effect i s with ⟨hr, -⟩ | ⟨u, -, he⟩
  · exact hr
  · exact absurd h (effect_no_invalidCause he)

/-- A `DECODE` step refuses the command exactly for R124's causes. -/
theorem exec_eq_refused_iff {i : Instr} {s : State} : exec i s = .next (refused s) ↔ invalidCause s.bound i := by
  refine ⟨fun h => ?_, exec_of_invalidCause⟩
  rcases exec_refused_cause_or_effect i s with ⟨-, hc⟩ | ⟨u, hu, he⟩
  · exact hc
  · obtain rfl : u = refused s := Host.Outcome.next.inj (hu.symm.trans h)
    exact absurd ⟨rfl, rfl⟩ (effect_not_invalidArgument he)

/-! ### The operand checks, written twice -/

/-- The field checks of R100 and R68 agree. -/
theorem fieldValueFits_eq (f : BitVec 4) (v : Byte) :
    fieldValueFits f v = (Field.ofId f).any fun fld => fld.fits v := by
  unfold fieldValueFits Field.ofId
  generalize f.toNat = k
  split <;> simp [Field.fits, Field.width] <;> exact decide_eq_decide.2 Nat.lt_succ_iff.symm

theorem fieldValueFits_eq_false_iff (f : BitVec 4) (v : Byte) :
    fieldValueFits f v = false ↔ 8 < f.toNat ∨ ∃ r ∈ fieldTable, r.1 = f.toNat ∧ 2 ^ r.2.2.1 ≤ v.toNat := by
  rw [fieldValueFits_eq]
  cases hf : Field.ofId f with
  | none => simp [ofId_eq_none_iff.1 hf]
  | some fld =>
    have hid : ¬ 8 < f.toNat := fun h => by simp [ofId_eq_none_iff.2 h] at hf
    rw [← fits_eq_false_iff hf]
    simp [hid]

/-- With the session as the command needs it, R124's causes are the ill-formed operands. -/
theorem invalidCause_iff_not_wf {i : Instr} {bound : Bool} (hneeds : i.needsSession = true → bound = true)
    (hbind : (∃ df a c, i = .bind df a c) → bound = false) : invalidCause bound i ↔ i.wf = false := by
  cases i with
  | busWrite reg n d =>
    have hn : ∀ n : BitVec 2, n = 3#2 ↔ 2 < n.toNat := by decide
    simp [invalidCause, Instr.wf, hneeds rfl, hn, imp_iff_not_or]
  | busRead reg n =>
    have hn : ∀ n : BitVec 2, n = 0#2 ∨ n = 3#2 ↔ n.toNat < 1 ∨ 2 < n.toNat := by decide
    simp [invalidCause, Instr.wf, hneeds rfl, hn, imp_iff_not_or]
  | encConfig f v base => exact (fieldValueFits_eq_false_iff f v).symm
  | decConv b => simp [invalidCause, Instr.wf]
  | decStatus b => simp [invalidCause, Instr.wf]
  | encThresh v => simp [invalidCause, Instr.wf]
  | bind df a c =>
    have hc : c.toNat = 0 ↔ c = 0#16 := by simp [← BitVec.toNat_inj]
    simp [invalidCause, Instr.wf, hbind ⟨df, a, c, rfl⟩, hc]
  | setField f v =>
    rw [Instr.wf, Bool.and_eq_false_iff, fieldValueFits_eq_false_iff, invalidCause, or_left_comm]
    simp [hneeds rfl, or_left_comm]
  | reqChan sel => simp [invalidCause, Instr.wf, hneeds rfl]
  | isReady => simp [invalidCause, Instr.wf, hneeds rfl]
  | readConv => simp [invalidCause, Instr.wf, hneeds rfl]
  | setThresh which v => simp [invalidCause, Instr.wf, hneeds rfl, ← BitVec.toNat_inj]

/-- Settles O24: the machine's checks are R124's, and so are the separately written ones. -/
theorem wellFormedCommandsAreNotRefused : Obligations.WellFormedCommandsAreNotRefused :=
  fun _ _ hneeds hbind => exec_eq_refused_iff.trans (invalidCause_iff_not_wf hneeds hbind)

/-! ### The codec's functions -/

/-- Settles O16: each clause is compared bit by bit, under the mask and beside it. -/
theorem fieldEncodingPreservesTheRest : Obligations.FieldEncodingPreservesTheRest := by
  have hlast : ∀ (w : Half) (f : Field) (v₁ v₂ : Byte),
      encodeConfig (encodeConfig w f v₁) f v₂ = encodeConfig w f v₂ := by
    intro w f v₁ v₂
    apply BitVec.eq_of_getLsbD_eq
    intro i hi
    cases hm : f.mask.getLsbD i <;> simp [encodeConfig_bit, hm]
  refine ⟨fun w f v hv => ⟨encodeConfig_and_not_mask w f v, ?_, hlast w f v v⟩, fun w f v₁ v₂ _ _ => hlast w f v₁ v₂,
    fun w f g v u hfg _ _ => ?_⟩
  · rw [encodeConfig_and_mask, Field.placed_read_back hv]
  · apply BitVec.eq_of_getLsbD_eq
    intro i hi
    have hdisjoint : (f.mask.getLsbD i && g.mask.getLsbD i) = false := by
      rw [← BitVec.getLsbD_and, Field.mask_disjoint hfg, BitVec.getLsbD_zero]
    simp only [encodeConfig_bit]
    cases hf : f.mask.getLsbD i <;> cases hg : g.mask.getLsbD i
    case true.true => simp [hf, hg] at hdisjoint
    all_goals simp

/-- Settles O15: the two functions take the same two bytes apart and put them together. -/
theorem splitAndJoinAreInverse : Obligations.SplitAndJoinAreInverse := by
  refine ⟨fun v => rfl, fun b0 b1 => ⟨join16_toNat b0 b1, hiByte_join16 b0 b1⟩, join16_hi_lo, fun b0 b1 => ?_⟩
  rw [split16, hiByte_join16, loByte_join16]

/-- Settles O31: the direction is the bit put below the address. -/
theorem addressBytesCarryTheDirection : Obligations.AddressBytesCarryTheDirection :=
  ⟨fun a => ⟨addrByteW_toNat a, addrByteR_toNat a⟩, by decide, by decide⟩

/-! ### The commands that complete in their `DECODE` step -/

/-- A row of the table of R29 is its id's field, the whole row. -/
theorem ofId_of_fieldTable_row {f : BitVec 4} {r : Nat × Nat × Nat × Half} (hr : r ∈ fieldTable) (hid : f.toNat = r.1) :
    ∃ fld, Field.ofId f = some fld ∧ r = (r.1, fld.shift, fld.width, fld.mask) := by
  have hrow : ∀ f : BitVec 4, ∀ r ∈ fieldTable, f.toNat = r.1 →
      (Field.ofId f).map (fun fld => (r.1, fld.shift, fld.width, fld.mask)) = some r := by decide
  obtain ⟨fld, hf, h⟩ := Option.map_eq_some_iff.1 (hrow f r hr hid)
  exact ⟨fld, hf, h.symm⟩

/-- Settles O19: a row of the table is its id's field, and its width check is the one refused. -/
theorem encConfigPutsTheFieldInResult : Obligations.EncConfigPutsTheFieldInResult := by
  refine ⟨fun s f v base r hr hid hv => ?_, fun s f v base h => exec_of_invalidCause ?_⟩
  · obtain ⟨fld, hf, hrow⟩ := ofId_of_fieldTable_row hr hid
    rw [hrow] at hv ⊢
    have hfits := (Field.fits_iff fld v).2 hv
    rw [exec_of_effect (i := .encConfig f v base) ⟨fld, hf, hfits, rfl⟩, encodeConfig_of_fits base hfits]
    rfl
  · exact h.imp_right fun ⟨r, hr, hid, hv⟩ => ⟨r, hr, hid.symm, hv⟩

/-- Settles O20: each has its effect in every state, its two bytes put together again. -/
theorem pureDecodersWriteTheirResult : Obligations.PureDecodersWriteTheirResult := by
  intro b s
  refine ⟨?_, ?_, ?_⟩
  · rw [exec_of_effect (i := .decConv b) rfl, conversionWord_hi_lo]
    rfl
  · rw [exec_of_effect (i := .decStatus b) rfl, statusResult_hi_lo]
    rfl
  · rw [exec_of_effect (i := .encThresh b) rfl, ← BitVec.ofNat_toNat]
    rfl

/-- Settles O17: the second command decodes the bytes the first one put in `RESULT`. -/
theorem codecRoundTrip : Obligations.CodecRoundTrip := by
  refine ⟨fun v => ⟨hiByte v, loByte v, rfl, join16_hi_lo v, ?_⟩, fun v s => ?_⟩
  · rw [decodeConversion, join16_hi_lo]
  · obtain ⟨-, -, henc⟩ := pureDecodersWriteTheirResult v s
    refine ⟨_, _, henc, (pureDecodersWriteTheirResult _ _).1, ?_⟩
    simp [succeeded]

/-- Settles O26: `BIND`'s checks leave the two forms of the operand, and the rest are R124's causes. -/
theorem bindMakesTheSessionOnce : Obligations.BindMakesTheSessionOnce := by
  refine fun df a c s => ⟨fun hb hdf hc => ?_, fun hb hdf => ?_, fun h => exec_of_invalidCause h⟩
  · subst hdf
    exact exec_of_effect (i := .bind true a c) ⟨hb, by simp [hc], rfl⟩
  · subst hdf
    exact exec_of_effect (i := .bind false a c) ⟨hb, by simp, rfl⟩

/-- Settles O27: a row of the table is its id's field, `OS` the one with id 0. -/
theorem setFieldChangesOneField : Obligations.SetFieldChangesOneField := by
  refine ⟨fun s f v hb r hr h0 hid hv => ?_, fun s f v h => exec_of_invalidCause ?_⟩
  · obtain ⟨fld, hf, hrow⟩ := ofId_of_fieldTable_row hr hid
    rw [hrow] at hv ⊢
    have hos : fld ≠ .os := by
      rintro rfl
      exact h0 (hid.symm.trans (ofId_eq_os_iff.1 hf))
    have hfits := (Field.fits_iff fld v).2 hv
    rw [exec_of_effect (i := .setField f v) ⟨hb, fld, hf, hos, hfits, rfl⟩, encodeConfig_of_fits _ hfits]
    rfl
  · rcases h with hb | h0 | h8 | ⟨r, hr, hid, hv⟩
    · exact .inl hb
    · exact .inr (.inr (.inl h0))
    · exact .inr (.inl h8)
    · exact .inr (.inr (.inr ⟨r, hr, hid.symm, hv⟩))

/-! ### The commands that set up a transaction -/

/-- R114: `REQ_CHAN`'s word keeps bits 11:0. -/
theorem reqChanWord_eq {sel : Byte} (h : sel.toNat ≤ 7) (w : Half) :
    reqChanWord w sel = ((w &&& 0x0FFF#16) ||| 0x8000#16 ||| (sel.setWidth 16 <<< 12)) := by
  have hmux : Field.mux.fits sel = true := (Field.fits_iff _ _).2 (Nat.lt_succ_of_le h)
  have hsel : (sel.setWidth 16 <<< 12 : Half) &&& 0x7FFF#16 = sel.setWidth 16 <<< 12 := by
    revert sel
    decide
  calc
    reqChanWord w sel = (((w &&& 0x8FFF#16) ||| (sel.setWidth 16 <<< 12)) &&& 0x7FFF#16) ||| 0x8000#16 := by
      rw [reqChanWord, encodeConfig_of_fits _ (by decide : Field.os.fits 1#8 = true), encodeConfig_of_fits _ hmux]
      rfl
    _ = (w &&& 0x0FFF#16) ||| (sel.setWidth 16 <<< 12) ||| 0x8000#16 := by
      rw [BitVec.and_or_distrib_right, BitVec.and_assoc, hsel]
      rfl
    _ = (w &&& 0x0FFF#16) ||| 0x8000#16 ||| (sel.setWidth 16 <<< 12) := by
      rw [BitVec.or_assoc, BitVec.or_comm (sel.setWidth 16 <<< 12), ← BitVec.or_assoc]

/-- Settles O28: the effect of `REQ_CHAN`, its word as R114 has it. -/
theorem reqChanCommitsTheMirrorAndStarts : Obligations.ReqChanCommitsTheMirrorAndStarts := by
  refine ⟨fun s sel hb hsel => ⟨_, rfl, ?_⟩, fun s sel h => exec_of_invalidCause h⟩
  rw [exec_of_effect (i := .reqChan sel) ⟨hb, hsel, rfl⟩, State.startWrite_eq, writeOps_eq_shifted, reqChanWord_eq hsel]
  rfl

/-- Settles O29: the effects of the two writes, and R124's causes. -/
theorem writeCommandsStageAndStart : Obligations.WriteCommandsStageAndStart := by
  refine ⟨fun s reg n d hb hreg hn => ?_, fun s reg n d h => exec_of_invalidCause h, fun s which v hb hw => ?_,
    fun s which v h => exec_of_invalidCause h⟩
  · rw [exec_of_effect (i := .busWrite reg n d) ⟨hb, hreg, hn, rfl⟩, State.startWrite_eq, writeOps_eq_shifted]
    rfl
  · rw [exec_of_effect (i := .setThresh which v) ⟨hb, hw, rfl⟩, State.startWrite_eq, writeOps_eq_shifted]
    rfl

/-- Settles O30: the effects of the three reads, and R124's causes. -/
theorem readCommandsStart : Obligations.ReadCommandsStart := by
  unfold Obligations.ReadCommandsStart
  intro begin
  refine ⟨fun s reg hb hreg => ⟨?_, ?_⟩, fun s reg n h => exec_of_invalidCause h, fun s hb => ⟨?_, ?_⟩,
    fun s hb => ⟨exec_of_invalidCause hb, exec_of_invalidCause hb⟩⟩
  · rw [exec_of_effect (i := .busRead reg 1#2) ⟨hb, hreg, by decide, rfl⟩, State.startRead_eq, readOps_eq_shifted]
    rfl
  · rw [exec_of_effect (i := .busRead reg 2#2) ⟨hb, hreg, by decide, rfl⟩, State.startRead_eq, readOps_eq_shifted]
    rfl
  · rw [exec_of_effect (i := .isReady) ⟨hb, rfl⟩, State.startRead_eq, readOps_eq_shifted]
    rfl
  · rw [exec_of_effect (i := .readConv) ⟨hb, rfl⟩, State.startRead_eq, readOps_eq_shifted]
    rfl

end Sys2Proof.Proofs

/-! # Proofs of the family other: whole transactions against their pseudocode, R85 to R96 -/

namespace Sys2Proof.Proofs

open Sys2Proof.Machine Sys2Proof.Claims

/-! ### The pseudocode, in the terms of a bus step -/

section

variable {cfg : Config} {ops rest : List BusOp} {op : BusOp} {sc sc' : Scratch} {ans : Nat → Answer} {e : BusEvent}

theorem play_timeout (h : saysTimeout cfg (ans 0)) (ops : List BusOp) :
    play cfg ops sc ans = .aborted .timeout .timeout sc := by
  rcases ops with _ | ⟨_ | _ | _, _⟩ <;> exact if_pos h

/-- A failure is answered. -/
theorem play_failure {c : AbortCause} (h : failureAt cfg (ans 0) ops = some c) :
    play cfg ops sc ans = .aborted c c.code sc := by
  rcases failureAt_some h with ⟨hto, rfl⟩ | ⟨harb, rfl, rest, ⟨k, rfl⟩ | ⟨b, cause, rfl⟩⟩
  · exact play_timeout hto ops
  · exact (if_neg harb.1).trans (if_pos harb)
  · exact (if_neg harb.1).trans (if_pos harb)

theorem not_saysTimeout_of_no_failure {a : Answer} (h : failureAt cfg a ops = none) : ¬ saysTimeout cfg a := by
  intro hto
  simp [failureAt_timeout hto] at h

/-- The final stop. -/
theorem play_stop (h : failureAt cfg (ans 0) [] = none) : play cfg [] sc ans = ⟨[.stop], .ok, sc, 1⟩ :=
  if_neg (not_saysTimeout_of_no_failure h)

/-- One step further. -/
theorem play_goes (h : failureAt cfg (ans 0) (op :: rest) = none) (hg : Goes (ans 0) sc op e none sc') :
    play cfg (op :: rest) sc ans = (play cfg rest sc' fun j => ans (j + 1)).after e := by
  have hto := not_saysTimeout_of_no_failure h
  cases hg with
  | cond k =>
    have harb : ¬ saysArbLost cfg (ans 0) := by simpa [failureAt_cond, hto] using h
    cases k <;> exact (if_neg hto).trans (if_neg harb)
  | ack b cause hack =>
    have harb : ¬ saysArbLost cfg (ans 0) := by simpa [failureAt_tx, hto] using h
    exact (if_neg hto).trans ((if_neg harb).trans (if_pos hack))
  | rx i last => exact if_neg hto

/-- A not-acknowledge, and its stop. -/
theorem play_nack {c : NackCause} (h : failureAt cfg (ans 0) (op :: rest) = none)
    (hg : Goes (ans 0) sc op e (some c) sc') : play cfg (op :: rest) sc ans = ⟨[e, .stop], c.code, sc, 1⟩ := by
  have hto := not_saysTimeout_of_no_failure h
  cases hg with
  | nack b c hack =>
    have harb : ¬ saysArbLost cfg (ans 0) := by simpa [failureAt_tx, hto] using h
    have hack : ¬ (ans 0).ack = true := by simp [hack]
    cases c <;> exact (if_neg hto).trans ((if_neg harb).trans (if_neg hack))

end

theorem Goes.exists (a : Answer) (sc : Scratch) (op : BusOp) : ∃ e fl sc', Goes a sc op e fl sc' := by
  cases op with
  | cond k => exact ⟨_, _, _, .cond k⟩
  | tx b c =>
    cases hk : a.ack with
    | true => exact ⟨_, _, _, .ack b c hk⟩
    | false => exact ⟨_, _, _, .nack b c hk⟩
  | rx i last => exact ⟨_, _, _, .rx i last⟩

/-- R96: one event a step, and one more for the stop. -/
theorem play_events_length (cfg : Config) (ops : List BusOp) (sc : Scratch) (ans : Nat → Answer) :
    (play cfg ops sc ans).events.length ≤ ops.length + 1 := by
  induction ops generalizing sc ans with
  | nil =>
    cases h : failureAt cfg (ans 0) [] with
    | some c => rw [play_failure h]; exact Nat.le_refl 1
    | none => rw [play_stop h]; exact Nat.le_refl 1
  | cons op rest ih =>
    cases h : failureAt cfg (ans 0) (op :: rest) with
    | some c => rw [play_failure h]; exact Nat.le_add_left 1 _
    | none =>
      obtain ⟨e, fl, sc', hg⟩ := Goes.exists (ans 0) sc op
      cases fl with
      | some c => rw [play_nack h hg]; exact Nat.le_add_left 2 _
      | none => rw [play_goes h hg]; exact Nat.succ_le_succ (ih _ _)

/-! ### The machine follows it -/

/-- The state in which a transaction of `cmd` that comes to `p` leaves the machine. -/
def finished (cmd : Instr) (p : Played) (s : State) : State :=
  ended p.code p.events p.asked (if p.code = .ok then s.setResultOpt (txnResult cmd p.scratch) else s)

theorem finished_ok {cmd : Instr} {p : Played} (h : p.code = .ok) (s : State) :
    finished cmd p s = ended .ok p.events p.asked (s.setResultOpt (txnResult cmd p.scratch)) := by
  rw [finished, if_pos h, h]

theorem finished_failed {cmd : Instr} {p : Played} (h : p.code ≠ .ok) (s : State) :
    finished cmd p s = ended p.code p.events p.asked s := by
  rw [finished, if_neg h]

theorem finished_frame (cmd : Instr) (p : Played) (s : State) : finished cmd p s =
    { ended p.code p.events p.asked s with
      result := (finished cmd p s).result, resultHeld := (finished cmd p s).resultHeld } := by
  unfold finished
  split
  · cases txnResult cmd p.scratch <;> rfl
  · rfl

/-- One step further and then to the end. -/
theorem finished_further (cmd : Instr) (p : Played) (e : BusEvent) (fl : Option NackCause) (sc : Scratch) (t : Txn)
    (s : State) : finished cmd p (further e fl sc t s) = finished cmd (p.after e) s := by
  have hasked : s.asked + 1 + p.asked = s.asked + (p.asked + 1) := by omega
  have hbytes : (p.after e).scratch = p.scratch := rfl
  by_cases hok : p.code = .ok
  · rw [finished_ok hok, finished_ok (p := p.after e) hok, hbytes]
    cases txnResult cmd p.scratch <;> simp [ended, further, going, Played.after, State.setResult, hasked]
  · rw [finished_failed hok, finished_failed (p := p.after e) hok]
    simp [ended, further, going, Played.after, hasked]

theorem answerAt_further (e : BusEvent) (fl : Option NackCause) (sc : Scratch) (t : Txn) (s : State) :
    (further e fl sc t s).answerAt = fun j => s.answerAt (j + 1) := by
  funext j
  simp only [State.answerAt, further, going, List.getElem?_drop, Nat.add_comm 1 j, Nat.add_assoc]

theorem step_bus {s : State} {t : Txn} (ha : s.agenda = []) (hp : s.phase = .bus t) : step s = .next (busStep t s) :=
  step_of_bus (.inl ⟨ha, rfl⟩) hp

/-- R90: from a not-acknowledge to the end. -/
theorem runFor_nackStop {s : State} {t : Txn} {c : NackCause} (ha : s.agenda = []) (hp : s.phase = .bus t)
    (hf : s.fail = some c) : runFor 1 s = .next (ended c.code [.stop] 0 s) := by
  rw [runFor_succ (step_bus ha hp), runFor_zero, busStep_nackStop hf]

/-- A transaction comes to what its pseudocode comes to, one step for each event. -/
theorem runFor_play {s : State} {t : Txn} (ha : s.agenda = []) (hp : s.phase = .bus t) (hf : s.fail = none) :
    runFor (play s.config t.todo s.scratch s.answerAt).events.length s =
      .next (finished t.cmd (play s.config t.todo s.scratch s.answerAt) s) := by
  obtain ⟨ops, ht⟩ : ∃ ops, t.todo = ops := ⟨_, rfl⟩
  rw [ht]
  induction ops generalizing s t with
  | nil =>
    have hstep := step_bus ha hp
    cases h : failureAt s.config (s.answerAt 0) [] with
    | some c =>
      rw [busStep_abort hf (ht ▸ h)] at hstep
      rw [play_failure h, finished_failed c.code_ne_ok]
      exact runFor_succ hstep
    | none =>
      rw [busStep_finalStop hf (ht ▸ h) ht] at hstep
      rw [play_stop h]
      exact runFor_succ hstep
  | cons op rest ih =>
    have hstep := step_bus ha hp
    cases h : failureAt s.config (s.answerAt 0) (op :: rest) with
    | some c =>
      rw [busStep_abort hf (ht ▸ h)] at hstep
      rw [play_failure h, finished_failed c.code_ne_ok]
      exact runFor_succ hstep
    | none =>
      obtain ⟨e, fl, sc', hg⟩ := Goes.exists (s.answerAt 0) s.scratch op
      rw [busStep_goes hf (ht ▸ h) ht hg] at hstep
      cases fl with
      | some c =>
        rw [play_nack h hg, finished_failed c.code_ne_ok]
        have hstop := runFor_nackStop (s := further e (some c) sc' { t with todo := rest } s) ha rfl rfl
        refine (runFor_succ hstep).trans (hstop.trans ?_)
        simp [ended, further, going]
      | none =>
        rw [play_goes h hg, ← finished_further _ _ _ none sc' { t with todo := rest }]
        refine (runFor_succ hstep).trans ?_
        have hrest := ih (s := further e none sc' { t with todo := rest } s) ha rfl rfl rfl
        rw [answerAt_further] at hrest
        exact hrest

/-- Settles O45: the machine follows the pseudocode, one step for each of its events. -/
theorem transactionRefinesItsPseudocode : Obligations.TransactionRefinesItsPseudocode := by
  intro s t ha hp hf
  refine ⟨_, _, runFor_play ha hp hf, ?_⟩
  generalize play s.config t.todo s.scratch s.answerAt = p
  rw [finished_frame]
  refine ⟨rfl, rfl, rfl, rfl, rfl, rfl, fun hfail => ?_, fun hok v hv => ?_, rfl, rfl, rfl⟩
  · rw [finished_failed hfail]
    exact ⟨rfl, rfl⟩
  · rw [finished_ok hok, hv]
    exact ⟨rfl, rfl⟩

/-- R85, R86: what is left of a transaction of `n` bytes is at most `n + 5` steps and its stop. -/
theorem todo_length_le {s : State} {t : Txn} (h : TxnOk s t) : t.todo.length ≤ t.n + 5 := by
  refine h.position.length_le.trans ?_
  unfold Txn.allOps
  cases t.dir with
  | wr => simp [writeOps_eq_shifted]
  | rd => simp [readOps_eq_shifted]

/-- Settles O46: one step for each event of the pseudocode, or the one stop after a not-acknowledge. -/
theorem transactionsEnd : Obligations.TransactionsEnd := by
  intro s t hi ha hp
  cases hf : s.fail with
  | some c => exact ⟨1, by omega, _, runFor_nackStop ha hp hf, rfl, rfl⟩
  | none =>
    have hplay := play_events_length s.config t.todo s.scratch s.answerAt
    have htodo := todo_length_le (hi.txn t hp)
    exact ⟨_, by omega, _, runFor_play ha hp hf, rfl, rfl⟩

end Sys2Proof.Proofs

/-! # Proofs of the family other: whole commands, every answer a success -/

namespace Sys2Proof.Proofs

open Sys2Proof.Machine Sys2Proof.Claims

/-! ### The pseudocode when every answer succeeds -/

/-- What a transaction comes to when nothing fails and every byte is acknowledged. -/
def allSucceed (ops : List BusOp) (sc : Scratch) (ans : Nat → Answer) : Played :=
  match ops with
  | [] => ⟨[.stop], .ok, sc, 1⟩
  | .cond k :: rest => (allSucceed rest sc fun j => ans (j + 1)).after k.event
  | .tx b _ :: rest => (allSucceed rest sc fun j => ans (j + 1)).after (.tx b .ack)
  | .rx i last :: rest =>
    (allSucceed rest (sc.put i (ans 0).byte) fun j => ans (j + 1)).after (.rx (ans 0).byte (if last then .nack else .ack))

theorem failureAt_succeeds {cfg : Config} {a : Answer} (h : a.succeeds = true) (ops : List BusOp) :
    failureAt cfg a ops = none := by
  obtain ⟨hdriven, hundriven, -⟩ := succeeds_reads (cfg := cfg) h
  unfold failureAt
  split
  · exact hdriven
  · exact hdriven
  · exact hundriven
  · exact hundriven

theorem play_eq_allSucceed (cfg : Config) {ops : List BusOp} (sc : Scratch) {ans : Nat → Answer}
    (h : ∀ j ≤ ops.length, (ans j).succeeds = true) : play cfg ops sc ans = allSucceed ops sc ans := by
  induction ops generalizing sc ans with
  | nil => exact play_stop (failureAt_succeeds (h 0 (Nat.zero_le _)) _)
  | cons op rest ih =>
    have h0 := h 0 (Nat.zero_le _)
    have hgo := failureAt_succeeds (cfg := cfg) h0 (op :: rest)
    have hrest := fun sc' => ih sc' fun j hj => h (j + 1) (Nat.succ_le_succ hj)
    cases op with
    | cond k => rw [play_goes hgo (.cond k), hrest]; rfl
    | tx b c =>
      obtain ⟨-, -, hack⟩ := succeeds_reads (cfg := cfg) h0
      rw [play_goes hgo (.ack b c hack), hrest]; rfl
    | rx i last => rw [play_goes hgo (.rx i last), hrest]; rfl

/-! ### The oracle's scripted answers -/

section

variable {s : State} {as : List Answer} {n : Nat}

theorem answerAt_of_answered (h : Answered s as n) {j : Nat} (hj : j < as.length) : s.answerAt j = as[j] := by
  rw [State.answerAt, List.prefix_iff_getElem?.1 h.1 j hj, Option.getD_some]

theorem succeeds_of_answered (h : Answered s as n) {j : Nat} (hj : j < n) : (s.answerAt j).succeeds = true := by
  obtain ⟨-, hlen, hok⟩ := id h
  rw [answerAt_of_answered h (hlen ▸ hj)]
  exact hok _ (List.getElem_mem _)

theorem byte_of_answered (h : Answered s as n) {j : Nat} {b : Byte} (hb : as[j]?.map Answer.byte = some b) :
    (s.answerAt j).byte = b := by
  obtain ⟨a, ha, rfl⟩ := Option.map_eq_some_iff.1 hb
  obtain ⟨hj, rfl⟩ := List.getElem?_eq_some_iff.1 ha
  rw [answerAt_of_answered h hj]

end

/-! ### From the `DECODE` step to the completion -/

/-- A command that makes a transaction, every answer a success: its `DECODE` step, then a step for each event. -/
theorem runFor_command {s u : State} {i : Instr} {t : Txn} {as : List Answer} (hs : AtDecode s i) (he : Effect i s u)
    (hu : u.phase = .bus t) (has : Answered s as (t.todo.length + 1)) :
    runFor ((allSucceed t.todo u.scratch s.answerAt).events.length + 1) s =
      .next (finished i (allSucceed t.todo u.scratch s.answerAt) u) := by
  obtain ⟨ha, hp, hf, -, hd⟩ := hs
  obtain ⟨-, -, -, -, hagenda, -, hasked, -, hscript, -⟩ := effect_frame he
  have hanswers : u.answerAt = s.answerAt := by
    funext j
    rw [State.answerAt, State.answerAt, hscript, hasked]
  have hstep : step s = .next u := by rw [step_of_nil ha, controllerStep_decode hp hd, exec_of_effect he]
  rcases effect_ends he with ⟨-, -, hidle, -⟩ | ⟨-, -, hfail, x, hx, rfl⟩
  · simp [hu] at hidle
  · obtain rfl : t = x := Phase.bus.inj (hu.symm.trans hx)
    have hplay := play_eq_allSucceed u.config u.scratch fun j (hj : j ≤ t.todo.length) =>
      succeeds_of_answered has (Nat.lt_succ_of_le hj)
    have hrun := runFor_play (hagenda.trans ha) hu (hfail.trans hf)
    rw [hanswers, hplay] at hrun
    exact (runFor_succ hstep).trans hrun

/-- Settles O39, for each of the three byte counts. -/
theorem busWriteRunsToCompletion : Obligations.BusWriteRunsToCompletion := by
  intro s reg n d as hs hreg hn has
  obtain ⟨-, -, -, hb, -⟩ := id hs
  have he : Effect (.busWrite reg n d) s _ := ⟨hb, hreg, hn, rfl⟩
  rw [State.startWrite_eq, writeOps_eq_shifted] at he
  have hcounts : ∀ n : BitVec 2, n ≠ 3#2 → n = 0#2 ∨ n = 1#2 ∨ n = 2#2 := by decide
  rcases hcounts n hn with rfl | rfl | rfl <;> exact runFor_command hs he rfl has

/-- Settles O40: the write of two bytes that the command sets up. -/
theorem setThreshRunsToCompletion : Obligations.SetThreshRunsToCompletion := by
  intro s which v as hs hw has
  obtain ⟨-, -, -, hb, -⟩ := id hs
  have he : Effect (.setThresh which v) s _ := ⟨hb, hw, rfl⟩
  rw [State.startWrite_eq, writeOps_eq_shifted] at he
  exact runFor_command hs he rfl has

/-- Settles O41: the write of the mirror's new word that the command sets up. -/
theorem reqChanRunsToCompletion : Obligations.ReqChanRunsToCompletion := by
  intro s sel as hs hsel has
  obtain ⟨-, -, -, hb, -⟩ := id hs
  have he : Effect (.reqChan sel) s _ := ⟨hb, hsel, rfl⟩
  rw [State.startWrite_eq, writeOps_eq_shifted, reqChanWord_eq hsel] at he
  exact ⟨_, rfl, runFor_command hs he rfl has⟩

theorem join16_word (b0 b1 : Byte) :
    BitVec.ofNat 32 (b0.toNat * 256 + b1.toNat) = (join16 b0 b1).setWidth 32 := by
  rw [← join16_toNat, BitVec.ofNat_toNat]

/-- Settles O42, for each of the two byte counts. -/
theorem busReadRunsToCompletion : Obligations.BusReadRunsToCompletion := by
  intro s reg n as b0 b1 hs hreg has h5 h6
  obtain ⟨-, -, -, hb, -⟩ := id hs
  obtain rfl := byte_of_answered has h5
  obtain rfl := byte_of_answered has h6
  refine ⟨fun hn => ?_, fun hn => ?_⟩ <;> subst hn
  · have he : Effect (.busRead reg 1#2) s _ := ⟨hb, hreg, by decide, rfl⟩
    rw [State.startRead_eq, readOps_eq_shifted] at he
    rw [BitVec.ofNat_toNat]
    exact runFor_command hs he rfl has
  · have he : Effect (.busRead reg 2#2) s _ := ⟨hb, hreg, by decide, rfl⟩
    rw [State.startRead_eq, readOps_eq_shifted] at he
    rw [join16_word]
    exact runFor_command hs he rfl has

/-- Settles O43: the read of two bytes that the command sets up, its result by the first. -/
theorem isReadyRunsToCompletion : Obligations.IsReadyRunsToCompletion := by
  intro s as b0 b1 hs has h5 h6
  obtain ⟨-, -, -, hb, -⟩ := id hs
  obtain rfl := byte_of_answered has h5
  obtain rfl := byte_of_answered has h6
  have he : Effect .isReady s _ := ⟨hb, rfl⟩
  rw [State.startRead_eq, readOps_eq_shifted] at he
  rw [← statusResult_eq _ (s.answerAt 6).byte]
  exact runFor_command hs he rfl has

/-- The conversion's value as the spec's arithmetic has it (R9, R103). -/
theorem conversionWord_eq (b0 b1 : Byte) : conversionWord b0 b1 =
    BitVec.ofInt 32 (if b0.toNat < 128 then ((b0.toNat * 256 + b1.toNat : Nat) : Int)
      else ((b0.toNat * 256 + b1.toNat : Nat) : Int) - 65536) := by
  have hlow : b1.toNat < 256 := b1.isLt
  have hsign : 2 * (join16 b0 b1).toNat < 2 ^ 16 ↔ b0.toNat < 128 := by rw [join16_toNat]; omega
  rw [conversionWord_eq_ofInt, BitVec.toInt_eq_toNat_cond, if_congr hsign rfl rfl, join16_toNat]
  rfl

/-- Settles O44: the read of two bytes that the command sets up, its result by both. -/
theorem readConvRunsToCompletion : Obligations.ReadConvRunsToCompletion := by
  intro s as b0 b1 hs has h5 h6
  obtain ⟨-, -, -, hb, -⟩ := id hs
  obtain rfl := byte_of_answered has h5
  obtain rfl := byte_of_answered has h6
  have he : Effect .readConv s _ := ⟨hb, rfl⟩
  rw [State.startRead_eq, readOps_eq_shifted] at he
  rw [← conversionWord_eq]
  exact runFor_command hs he rfl has

end Sys2Proof.Proofs

/-! # Proofs of the family other: reset, the host's accesses, and what any step leaves alone -/

namespace Sys2Proof.Proofs

open Sys2Proof.Machine Sys2Proof.Claims

/-! ### Whose turn it is -/

theorem controllerNext_of_controllerFirst (s : State) :
    ControllerNext { s with agenda := controllerFirst s.agenda } s := by
  obtain ⟨l, hl⟩ : ∃ l, s.agenda = l := ⟨_, rfl⟩
  cases l with
  | nil =>
    have hsame : ({ s with agenda := [] } : State) = s := by rw [← hl]
    rw [hl]
    exact .inl ⟨rfl, hsame.symm⟩
  | cons turn rest =>
    have hsame : ({ s with agenda := turn :: rest } : State) = s := by rw [← hl]
    rw [hl]
    exact .inr ⟨turn :: rest, rfl, hsame.symm⟩

theorem decode_of_decodeTableWord {nbits w : Nat} {i : Instr} (h : decodeTableWord nbits w = some i) :
    decode (tableWord nbits w) = .ok i := by
  unfold decodeTableWord at h
  split at h
  · cases hd : decode (tableWord nbits w) with
    | ok j => simpa [hd] using h
    | error e => simp [hd] at h
  · simp at h

/-- Settles O5: a `CMD` write with the controller next leaves the `DECODE` step to come. -/
theorem stepRunsTheDecodedCommand : Obligations.StepRunsTheDecodedCommand := by
  refine ⟨fun s s0 i hn hp hd => ?_, fun s nbits w i h => ?_⟩
  · rw [step_of_controllerNext hn, controllerStep_decode hp hd]
  · have hn := controllerNext_of_controllerFirst (s.issue (tableWord nbits w))
    rw [State.issue_agenda] at hn
    exact (step_of_controllerNext hn).trans (controllerStep_decode rfl (decode_of_decodeTableWord h))

/-- Settles O14: the turn is the controller's, and an idle one does nothing. -/
theorem idleControllerDoesNotStep : Obligations.IdleControllerDoesNotStep := by
  intro s s0 hn hp
  rw [step_of_controllerNext hn, controllerStep_idle hp]

/-! ### Reset -/

/-- Settles O7: the reset state is a literal, and so is each reading of it. -/
theorem resetStateIsAsGiven : Obligations.ResetStateIsAsGiven := by
  unfold Obligations.ResetStateIsAsGiven
  decide

/-- Settles O8: the turn is the reset event's, whatever state it finds. -/
theorem resetEventAbandonsEverything : Obligations.ResetEventAbandonsEverything := by
  intro s rest ha
  refine ⟨({ s with agenda := rest } : State).resetEvent, step_of_turn ha, ?_⟩
  simp [readAt, State.txn]

/-! ### The host's accesses -/

theorem Code.bits_toNat (c : Code) : c.bits.toNat = errcodeNumber c := by
  cases c <;> rfl

/-- The register map of R15 to R22, written twice. -/
theorem readAt_eq_hostValue {w off : Nat} {r : HostReg} (s : State) (h : HostReg.accessed w off = some r) :
    readAt s off = s.hostValue r := by
  obtain ⟨-, h⟩ := (accessed_iff w off r).1 h
  rcases h with ⟨rfl, rfl⟩ | ⟨rfl, rfl⟩ | ⟨rfl, rfl⟩ | ⟨rfl, rfl⟩ | ⟨rfl, rfl⟩ | ⟨rfl, rfl⟩ <;>
    simp [readAt, State.hostValue, statusWord_eq, Code.bits_toNat]

/-- Settles O9: a listed offset is a register's, and the read returns its value or faults. -/
theorem hostReadReturnsTheRegister : Obligations.HostReadReturnsTheRegister := by
  intro s rest off ho ha
  obtain ⟨r, hr⟩ := Option.ne_none_iff_exists'.1 (mt accessed_eq_none_iff.1 (not_not_intro ⟨rfl, ho⟩))
  have hvalue : ({ s with agenda := rest } : State).hostValue r = readAt s off := (readAt_eq_hostValue _ hr).symm
  rw [step_of_turn ha, runTurn, hostRead, hr]
  simp only [hvalue]
  cases readAt s off <;> rfl

/-- A write of a read-only register is ignored (R16). -/
theorem hostWrite_readOnly {off : Nat} (ho : off ∈ [0x04, 0x08, 0x0C, 0x10]) (v : Word) (s : State) :
    hostWrite 32 off v s = .next s := by
  simp only [List.mem_cons, List.not_mem_nil, or_false] at ho
  rcases ho with rfl | rfl | rfl | rfl <;> rfl

/-- Settles O10: an unlisted access is R135's fault, and the listed ones are read and written as R16 says. -/
theorem hostAccessIsWholeRegistersOnly : Obligations.HostAccessIsWholeRegistersOnly := by
  refine ⟨fun s rest w off ha hbad => step_of_hostFault (.badRead ha hbad),
    fun s rest w off v ha hbad => step_of_hostFault (.badWrite ha hbad), fun s rest off v ho ha => ?_,
    fun s rest ha => hostReadReturnsTheRegister s rest 0x00 (by decide) ha⟩
  rw [step_of_turn ha]
  exact hostWrite_readOnly ho v _

/-! ### What a step that is no reset leaves alone -/

/-- Settles O52: the host cannot write the session, and the controller only by a `BIND` while unbound. -/
theorem onlyBindWritesTheAddress : Obligations.OnlyBindWritesTheAddress := by
  intro s t h hr hchanged
  rcases step_controller_or_hostKeeps h hr with ⟨hturn, l, hc⟩ | hk
  · rcases controllerStep_session hc with ⟨hb, ha⟩ | hbind
    · exact absurd hchanged (not_or.2 ⟨not_not_intro ha, not_not_intro hb⟩)
    · exact ⟨hturn, hbind⟩
  · exact absurd hchanged (not_or.2 ⟨not_not_intro hk.sessAddr, not_not_intro hk.bound⟩)

/-- No controller step touches `LATCH`, its sampled timeout, `TIMEOUT`, the parameters or what belongs to the host. -/
theorem controllerStep_frame {s t : State} (h : controllerStep s = .next t) :
    t.config = s.config ∧ t.timeout = s.timeout ∧ t.latch = s.latch ∧ t.latchTimeout = s.latchTimeout ∧
      t.agenda = s.agenda ∧ t.hostLog = s.hostLog ∧ s.asked ≤ t.asked ∧ s.staleIdx ≤ t.staleIdx ∧
      t.script <:+ s.script := by
  rcases controllerStep_next h with ⟨-, rfl⟩ | ⟨-, rfl⟩ | ⟨-, i, -, he⟩ | ⟨x, -, rfl⟩
  · simp
  · simp [State.refuse_eq]
  · obtain ⟨hcfg, hto, hl, hlt, hag, hlog, hask, hstale, hscr, -⟩ := effect_frame he
    exact ⟨hcfg, hto, hl, hlt, hag, hlog, hask.ge, hstale.ge, hscr ▸ List.suffix_refl _⟩
  · obtain ⟨hcfg, -, -, -, hto, hl, hlt, hag, hlog, hask, hstale, hscr, -⟩ := busStep_frame x s
    exact ⟨hcfg, hto, hl, hlt, hag, hlog, hask, hstale, hscr⟩

/-- Settles O55: the host's writes fault while a command runs, and no controller step touches the three. -/
theorem runningCommandIsFixed : Obligations.RunningCommandIsFixed := by
  intro s t hb h hr
  rcases step_controller_or_hostKeeps h hr with ⟨-, l, hc⟩ | hk
  · obtain ⟨-, hto, hl, hlt, -⟩ := controllerStep_frame hc
    exact ⟨hl, hlt, hto⟩
  · exact hk.latched hb

/-- A controller step puts one event on the bus while a transaction runs, and none else. -/
theorem controllerStep_busLog {s t : State} (h : controllerStep s = .next t) :
    t.busLog = s.busLog ∨ s.txn ≠ none ∧ ∃ e, t.busLog = s.busLog ++ [e] := by
  rcases controllerStep_next h with ⟨-, rfl⟩ | ⟨-, rfl⟩ | ⟨-, i, -, he⟩ | ⟨x, hp, rfl⟩
  · exact .inl rfl
  · exact .inl rfl
  · obtain ⟨-, -, -, -, -, -, -, -, -, hlog, -⟩ := effect_frame he
    exact .inl hlog
  · obtain ⟨-, -, -, -, -, -, -, -, -, -, -, -, hlog⟩ := busStep_frame x s
    exact .inr ⟨(State.txn_ne_none s).2 ⟨x, hp⟩, hlog⟩

/-- Settles O56: the host puts nothing on the bus, and the controller only in a bus step. -/
theorem busLogGrowsOnlyInBusSteps : Obligations.BusLogGrowsOnlyInBusSteps := by
  intro s t h hr
  rcases step_controller_or_hostKeeps h hr with ⟨hturn, l, hc⟩ | hk
  · rcases controllerStep_busLog hc with hsame | ⟨htxn, hone⟩
    · exact ⟨.inl hsame, fun hne => absurd hsame hne⟩
    · exact ⟨.inr hone, fun _ => ⟨hturn, htxn⟩⟩
  · exact ⟨.inl hk.busLog, fun hne => absurd hk.busLog hne⟩

/-! ### `BUSY` and `ERRCODE` -/

theorem busStep_ends (x : Txn) (s : State) :
    ((busStep x s).busy = false ∧ (busStep x s).phase = .idle) ∨
      ((busStep x s).busy = s.busy ∧ (busStep x s).errCode = s.errCode) := by
  rcases busStep_cases x s with ⟨c, -, h⟩ | ⟨-, c, -, h⟩ | ⟨-, -, -, h⟩ | ⟨-, op, rest, e, fl, sc, -, -, -, h⟩ <;>
    rw [h]
  · exact .inl ⟨rfl, rfl⟩
  · exact .inl ⟨rfl, rfl⟩
  · exact .inl ⟨rfl, rfl⟩
  · exact .inr ⟨rfl, rfl⟩

/-- R82: a controller step completes a running command, or leaves `BUSY` and `ERRCODE` as they are. -/
theorem controllerStep_ends {s t : State} (hi : s.Inv) (h : controllerStep s = .next t) :
    (s.busy = true ∧ t.busy = false ∧ t.phase = .idle) ∨ (t.busy = s.busy ∧ t.errCode = s.errCode) := by
  rcases controllerStep_next h with ⟨-, rfl⟩ | ⟨hp, rfl⟩ | ⟨hp, i, -, he⟩ | ⟨x, hp, rfl⟩
  · exact .inr ⟨rfl, rfl⟩
  · exact .inl ⟨hi.busy.2 (by simp [hp]), rfl, rfl⟩
  · rcases effect_ends he with ⟨-, hb, hidle, -⟩ | ⟨herr, hb, -⟩
    · exact .inl ⟨hi.busy.2 (by simp [hp]), hb, hidle⟩
    · exact .inr ⟨hb, herr⟩
  · exact (busStep_ends x s).imp_left fun hend => ⟨hi.busy.2 (by simp [hp]), hend⟩

/-- A step that is no reset is the controller's, issues a command, or leaves `BUSY` and `ERRCODE` alone. -/
theorem step_status {s t : State} (h : step s = .next t) (hr : s.agenda.head? ≠ some .reset) :
    (ControllersTurn s ∧ ∃ l, controllerStep { s with agenda := l } = .next t) ∨
      ((∃ rest w, s.agenda = .hostWrite 32 0x00 w :: rest) ∧ s.busy = false ∧ t.busy = true ∧ t.errCode = .ok) ∨
      (t.busy = s.busy ∧ t.errCode = s.errCode) := by
  rcases step_cases h with ⟨s0, hn, hc⟩ | ⟨rest, w, off, r, v, -, -, -, rfl⟩ | ⟨rest, w, off, v, ha, hcmd, hb, rfl⟩ |
    ⟨rest, w, off, v, -, -, -, rfl⟩ | ⟨rest, w, off, r, v, -, -, rfl⟩ | ⟨rest, ha, -⟩
  · obtain ⟨hs0, -, -, hturn⟩ := controllerNext_frame hn
    rw [hs0] at hc
    exact .inl ⟨hturn, _, hc⟩
  · exact .inr (.inr ⟨rfl, rfl⟩)
  · obtain ⟨rfl, hoff⟩ := (accessed_iff w off _).1 hcmd
    obtain rfl : off = 0x00 := by simpa using hoff
    exact .inr (.inl ⟨⟨rest, v, ha⟩, hb, rfl, rfl⟩)
  · exact .inr (.inr ⟨rfl, rfl⟩)
  · exact .inr (.inr ⟨rfl, rfl⟩)
  · exact absurd (by rw [ha]; rfl) hr

/-- Settles O57: the three ways `BUSY` can go are the three ends of a step. -/
theorem busyAndErrcodeChangeTogether : Obligations.BusyAndErrcodeChangeTogether := by
  intro s t hi h hr
  rcases step_status h hr with ⟨hturn, l, hc⟩ | ⟨⟨rest, w, ha⟩, hs, ht, herr⟩ | ⟨hb, herr⟩
  · rcases controllerStep_ends (inv_withAgenda hi l) hc with ⟨hs, ht, hidle⟩ | ⟨hb, herr⟩
    · have hs : s.busy = true := hs
      exact ⟨by simp [hs], fun _ _ => ⟨hturn, hidle, State.txn_of_idle t hidle⟩, by simp [hs, ht]⟩
    · have hb : t.busy = s.busy := hb
      exact ⟨fun hs ht => by simp [hb, hs] at ht, fun hs ht => by simp [hb, hs] at ht, fun _ => herr⟩
  · exact ⟨fun _ _ => ⟨rest, w, ha, herr⟩, by simp [hs], by simp [hs, ht]⟩
  · exact ⟨fun hs ht => by simp [hb, hs] at ht, fun hs ht => by simp [hb, hs] at ht, fun _ => herr⟩

/-- Settles O58: `ERRCODE` is 0 while a command runs, and R19 leaves `RESULT` until it completes. -/
theorem earlyReadsSeeTheOldResult : Obligations.EarlyReadsSeeTheOldResult := by
  intro s hi hb
  refine ⟨fun rest ha => ?_, fun t h hr ht => ?_⟩
  · have herr : s.errCode = .ok := hi.errCode (hi.busy.1 hb)
    rw [hostReadReturnsTheRegister s rest 0x04 (by decide) ha]
    simp [readAt, herr, hb, errcodeNumber]
  · exact (resultIsWrittenOnSuccessOnly.1 s t hi h hr).2 fun ⟨_, hf, _⟩ => by simp [ht] at hf

/-- Settles O59: `OK` and `INVALID_ARGUMENT` are no bus errors, and every other change of `ERRCODE` is a bus step's. -/
theorem busErrorsComeFromBusSteps : Obligations.BusErrorsComeFromBusSteps := by
  intro s t hi h hr hne hmem
  have hok : t.errCode ≠ .ok := fun hc => by simp [hc] at hmem
  rcases step_status h hr with ⟨hturn, l, hc⟩ | ⟨-, -, -, herr⟩ | ⟨-, herr⟩
  · refine ⟨hturn, ?_⟩
    rcases controllerStep_next hc with ⟨-, rfl⟩ | ⟨-, rfl⟩ | ⟨-, i, -, he⟩ | ⟨x, hp, rfl⟩
    · exact absurd rfl hne
    · simp [State.refuse_eq] at hmem
    · rcases effect_ends he with ⟨herr, -⟩ | ⟨herr, -⟩
      · exact absurd herr hok
      · exact absurd herr hne
    · have hx := hi.txn x hp
      exact ⟨x, hp, by simp [hx.shape], hx.latched⟩
  · exact absurd herr hok
  · exact absurd herr hne

/-- Settles O60: the controller uses up answers, the host's reads add to what it has seen, and a turn is used up. -/
theorem outsideDataOnlyMovesForward : Obligations.OutsideDataOnlyMovesForward := by
  intro s t h
  rcases step_cases h with ⟨s0, hn, hc⟩ | ⟨rest, w, off, r, v, ha, -, -, rfl⟩ | ⟨rest, w, off, v, ha, -, -, rfl⟩ |
    ⟨rest, w, off, v, ha, -, -, rfl⟩ | ⟨rest, w, off, r, v, ha, -, rfl⟩ | ⟨rest, ha, rfl⟩
  · obtain ⟨hs0, hag0, -⟩ := controllerNext_frame hn
    rw [hs0] at hc
    obtain ⟨hcfg, -, -, -, hag, hlog, hask, hstale, hscr⟩ := controllerStep_frame hc
    exact ⟨hcfg, hask, hstale, hlog ▸ List.prefix_refl _, hscr, hag ▸ hag0⟩
  · simp [ha]
  · simp [ha]
  · simp [ha]
  · simp [ha]
  · simp [ha]

end Sys2Proof.Proofs
